-- ==== Sys2Proof/Word.lean ====
section
/-! DEFINITION. The word types of the hardware (00_scope.md R8, R11) and their plainest arithmetic: register values are
64-bit words, instruction words and physical addresses have 32 bits, the smallest addressable unit is the byte. -/

namespace Sys2Proof

/-- A register value or virtual address: 64 bits (R8, R11). -/
abbrev Word := BitVec 64

/-- An instruction word, a 32-bit CP0 register or the low half of a register. -/
abbrev Word32 := BitVec 32

/-- A physical address: 32 bits (R8). -/
abbrev PAddr := BitVec 32

/-- One byte of memory. -/
abbrev Byte := BitVec 8

/-- A general-purpose, CP0 or CP1 register number. -/
abbrev RegNo := BitVec 5

/-- `v[31:0]` (R10). -/
abbrev lo32 (v : Word) : Word32 := v.setWidth 32

/-- `sext_64(v)` of a 32-bit value (R11). -/
abbrev sext64 (v : Word32) : Word := v.signExtend 64

/-- `sext_64(imm)` of a 16-bit immediate (R263). -/
abbrev sextImm (imm : BitVec 16) : Word := imm.signExtend 64

/-- `zext_64(imm)` of a 16-bit immediate (R263). -/
abbrev zextImm (imm : BitVec 16) : Word := imm.setWidth 64

end Sys2Proof
end

