-- ==== Sys2Proof/Config.lean ====
section
/-! DEFINITION. The named parameters of R9 with their defaults, and the free values (`draw` of R14): constants without a
body, so that nothing proved of the model depends on which value they have. -/

namespace Sys2Proof

/-- `RESERVED_POLICY`: what a reserved encoding does (R271). -/
inductive ReservedPolicy where
  | raiseRI
  | refuse
deriving DecidableEq, Repr

/-- `TLB_MULTIMATCH`: how a lookup or probe that more than one entry matches is resolved (R193). -/
inductive MultiMatch where
  | refuse
  | lowestIndex
  | mostRecent
deriving DecidableEq, Repr

/-- `RANDOM_POLICY`: how Random moves (R204). -/
inductive RandomPolicy where
  | onTlbwr
  | perCycle
  | draw
deriving DecidableEq, Repr

/-- `HILO_HAZARD`: what an MFHI or MFLO followed within two instructions by a HI/LO writer does (R768). -/
inductive HiloPolicy where
  | refuse
  | exact
deriving DecidableEq, Repr

/-- The named parameters of R9 that are values. `BUS` and `EXT_INT` are inputs of the state; `CP1_UNIT` is here the fact
whether a unit is attached. No instruction writes them. -/
structure Params where
  uncachedLatency  : Nat
  excEntryStall    : Nat
  refillLatency    : Nat
  cp1Present       : Bool
  reservedPolicy   : ReservedPolicy
  tlbMultimatch    : MultiMatch
  randomPolicy     : RandomPolicy
  hiloHazard       : HiloPolicy
  cp0HazardWindow  : Nat
  prid             : Word32
  configEc         : BitVec 3
  noopQuirks       : Bool
deriving DecidableEq, Repr

/-- The defaults of R9, every one as the table prints it; the machine has them at reset. -/
def Params.specDefault : Params where
  uncachedLatency := 50
  excEntryStall   := 2
  refillLatency   := 8
  cp1Present      := false
  reservedPolicy  := .raiseRI
  tlbMultimatch   := .refuse
  randomPolicy    := .draw
  hiloHazard      := .refuse
  cp0HazardWindow := 3
  prid            := 0x00000B22#32
  configEc        := 7#3
  noopQuirks      := false

/-- The state of the external CP1 unit as far as the CORE's interface moves data through it (R640): its registers, its
control registers and its condition bit. PRESUMED (log entry 9): the source excludes the unit's register file. -/
structure Cp1 where
  fpr  : Vector Word 32
  fcr  : Vector Word32 32
  cond : Bool
deriving DecidableEq, Repr, Inhabited

/-- The free values, one after another: the n-th `draw` of a run (R14). The state counts how many were taken. -/
opaque Config.draw : Nat → Word

/-- What the external CP1 unit does with a word the CORE hands it (R640): from the payload `iw[25:0]`, Status.FR and the
unit's state, its new state and whether it signals a floating-point exception. The unit is opaque (R6, R52). -/
opaque Config.cp1Exec : BitVec 26 → Bool → Cp1 → Cp1 × Bool

end Sys2Proof
end

