-- ==== Sys2Proof/Syntax.lean ====
section
/-! DEFINITION. The instructions: one constructor per row of spec/opcode_table.json (30_encoding.md R261 to R270), its
operands exactly as wide as their fields, so that an operand outside its field cannot be written down. -/

namespace Sys2Proof

/-- An instruction of the CORE, destination first as in the assembler syntax of R277. `code` fields are operands because
every value of them is legal (R273); `payload` is `iw[25:0]` of a coprocessor instruction (R269). -/
inductive Instr where
  /-- ADD (R310). -/
  | add (rd : RegNo) (rs : RegNo) (rt : RegNo)
  /-- ADDU (R311). -/
  | addu (rd : RegNo) (rs : RegNo) (rt : RegNo)
  /-- SUB (R312). -/
  | sub (rd : RegNo) (rs : RegNo) (rt : RegNo)
  /-- SUBU (R313). -/
  | subu (rd : RegNo) (rs : RegNo) (rt : RegNo)
  /-- DADD (R316). -/
  | dadd (rd : RegNo) (rs : RegNo) (rt : RegNo)
  /-- DADDU (R317). -/
  | daddu (rd : RegNo) (rs : RegNo) (rt : RegNo)
  /-- DSUB (R318). -/
  | dsub (rd : RegNo) (rs : RegNo) (rt : RegNo)
  /-- DSUBU (R319). -/
  | dsubu (rd : RegNo) (rs : RegNo) (rt : RegNo)
  /-- SLT (R330). -/
  | slt (rd : RegNo) (rs : RegNo) (rt : RegNo)
  /-- SLTU (R331). -/
  | sltu (rd : RegNo) (rs : RegNo) (rt : RegNo)
  /-- AND (R340). -/
  | and_ (rd : RegNo) (rs : RegNo) (rt : RegNo)
  /-- OR (R341). -/
  | or_ (rd : RegNo) (rs : RegNo) (rt : RegNo)
  /-- XOR (R342). -/
  | xor_ (rd : RegNo) (rs : RegNo) (rt : RegNo)
  /-- NOR (R343). -/
  | nor_ (rd : RegNo) (rs : RegNo) (rt : RegNo)
  /-- ADDI (R314). -/
  | addi (rt : RegNo) (rs : RegNo) (imm : BitVec 16)
  /-- ADDIU (R315). -/
  | addiu (rt : RegNo) (rs : RegNo) (imm : BitVec 16)
  /-- DADDI (R320). -/
  | daddi (rt : RegNo) (rs : RegNo) (imm : BitVec 16)
  /-- DADDIU (R321). -/
  | daddiu (rt : RegNo) (rs : RegNo) (imm : BitVec 16)
  /-- SLTI (R332). -/
  | slti (rt : RegNo) (rs : RegNo) (imm : BitVec 16)
  /-- SLTIU (R333). -/
  | sltiu (rt : RegNo) (rs : RegNo) (imm : BitVec 16)
  /-- ANDI (R344). -/
  | andi (rt : RegNo) (rs : RegNo) (imm : BitVec 16)
  /-- ORI (R345). -/
  | ori (rt : RegNo) (rs : RegNo) (imm : BitVec 16)
  /-- XORI (R346). -/
  | xori (rt : RegNo) (rs : RegNo) (imm : BitVec 16)
  /-- LUI (R347). -/
  | lui (rt : RegNo) (imm : BitVec 16)
  /-- SLL (R350). -/
  | sll (rd : RegNo) (rt : RegNo) (sa : BitVec 5)
  /-- SRL (R351). -/
  | srl (rd : RegNo) (rt : RegNo) (sa : BitVec 5)
  /-- SRA (R352). -/
  | sra (rd : RegNo) (rt : RegNo) (sa : BitVec 5)
  /-- DSLL (R356). -/
  | dsll (rd : RegNo) (rt : RegNo) (sa : BitVec 5)
  /-- DSRL (R357). -/
  | dsrl (rd : RegNo) (rt : RegNo) (sa : BitVec 5)
  /-- DSRA (R358). -/
  | dsra (rd : RegNo) (rt : RegNo) (sa : BitVec 5)
  /-- DSLL32 (R359). -/
  | dsll32 (rd : RegNo) (rt : RegNo) (sa : BitVec 5)
  /-- DSRL32 (R360). -/
  | dsrl32 (rd : RegNo) (rt : RegNo) (sa : BitVec 5)
  /-- DSRA32 (R361). -/
  | dsra32 (rd : RegNo) (rt : RegNo) (sa : BitVec 5)
  /-- SLLV (R353). -/
  | sllv (rd : RegNo) (rt : RegNo) (rs : RegNo)
  /-- SRLV (R354). -/
  | srlv (rd : RegNo) (rt : RegNo) (rs : RegNo)
  /-- SRAV (R355). -/
  | srav (rd : RegNo) (rt : RegNo) (rs : RegNo)
  /-- DSLLV (R362). -/
  | dsllv (rd : RegNo) (rt : RegNo) (rs : RegNo)
  /-- DSRLV (R363). -/
  | dsrlv (rd : RegNo) (rt : RegNo) (rs : RegNo)
  /-- DSRAV (R364). -/
  | dsrav (rd : RegNo) (rt : RegNo) (rs : RegNo)
  /-- MULT (R410). -/
  | mult (rs : RegNo) (rt : RegNo)
  /-- MULTU (R411). -/
  | multu (rs : RegNo) (rt : RegNo)
  /-- DMULT (R412). -/
  | dmult (rs : RegNo) (rt : RegNo)
  /-- DMULTU (R413). -/
  | dmultu (rs : RegNo) (rt : RegNo)
  /-- DIV (R420). -/
  | div (rs : RegNo) (rt : RegNo)
  /-- DIVU (R421). -/
  | divu (rs : RegNo) (rt : RegNo)
  /-- DDIV (R422). -/
  | ddiv (rs : RegNo) (rt : RegNo)
  /-- DDIVU (R423). -/
  | ddivu (rs : RegNo) (rt : RegNo)
  /-- MFHI (R430). -/
  | mfhi (rd : RegNo)
  /-- MFLO (R431). -/
  | mflo (rd : RegNo)
  /-- MTHI (R432). -/
  | mthi (rs : RegNo)
  /-- MTLO (R433). -/
  | mtlo (rs : RegNo)
  /-- J (R450). -/
  | j (target : BitVec 26)
  /-- JAL (R451). -/
  | jal (target : BitVec 26)
  /-- JR (R452). -/
  | jr (rs : RegNo)
  /-- JALR (R453). -/
  | jalr (rd : RegNo) (rs : RegNo)
  /-- BEQ (R460). -/
  | beq (rs : RegNo) (rt : RegNo) (imm : BitVec 16)
  /-- BNE (R461). -/
  | bne (rs : RegNo) (rt : RegNo) (imm : BitVec 16)
  /-- BLEZ (R462). -/
  | blez (rs : RegNo) (imm : BitVec 16)
  /-- BGTZ (R463). -/
  | bgtz (rs : RegNo) (imm : BitVec 16)
  /-- BEQL (R464). -/
  | beql (rs : RegNo) (rt : RegNo) (imm : BitVec 16)
  /-- BNEL (R465). -/
  | bnel (rs : RegNo) (rt : RegNo) (imm : BitVec 16)
  /-- BLEZL (R466). -/
  | blezl (rs : RegNo) (imm : BitVec 16)
  /-- BGTZL (R467). -/
  | bgtzl (rs : RegNo) (imm : BitVec 16)
  /-- BLTZ (R470). -/
  | bltz (rs : RegNo) (imm : BitVec 16)
  /-- BGEZ (R471). -/
  | bgez (rs : RegNo) (imm : BitVec 16)
  /-- BLTZL (R472). -/
  | bltzl (rs : RegNo) (imm : BitVec 16)
  /-- BGEZL (R473). -/
  | bgezl (rs : RegNo) (imm : BitVec 16)
  /-- BLTZAL (R474). -/
  | bltzal (rs : RegNo) (imm : BitVec 16)
  /-- BGEZAL (R475). -/
  | bgezal (rs : RegNo) (imm : BitVec 16)
  /-- BLTZALL (R476). -/
  | bltzall (rs : RegNo) (imm : BitVec 16)
  /-- BGEZALL (R477). -/
  | bgezall (rs : RegNo) (imm : BitVec 16)
  /-- LB (R510). -/
  | lb (rt : RegNo) (offset : BitVec 16) (base : RegNo)
  /-- LBU (R511). -/
  | lbu (rt : RegNo) (offset : BitVec 16) (base : RegNo)
  /-- LH (R512). -/
  | lh (rt : RegNo) (offset : BitVec 16) (base : RegNo)
  /-- LHU (R513). -/
  | lhu (rt : RegNo) (offset : BitVec 16) (base : RegNo)
  /-- LW (R514). -/
  | lw (rt : RegNo) (offset : BitVec 16) (base : RegNo)
  /-- LWU (R515). -/
  | lwu (rt : RegNo) (offset : BitVec 16) (base : RegNo)
  /-- LD (R516). -/
  | ld (rt : RegNo) (offset : BitVec 16) (base : RegNo)
  /-- LWL (R521). -/
  | lwl (rt : RegNo) (offset : BitVec 16) (base : RegNo)
  /-- LWR (R522). -/
  | lwr (rt : RegNo) (offset : BitVec 16) (base : RegNo)
  /-- LDL (R523). -/
  | ldl (rt : RegNo) (offset : BitVec 16) (base : RegNo)
  /-- LDR (R524). -/
  | ldr (rt : RegNo) (offset : BitVec 16) (base : RegNo)
  /-- SB (R530). -/
  | sb (rt : RegNo) (offset : BitVec 16) (base : RegNo)
  /-- SH (R531). -/
  | sh (rt : RegNo) (offset : BitVec 16) (base : RegNo)
  /-- SW (R532). -/
  | sw (rt : RegNo) (offset : BitVec 16) (base : RegNo)
  /-- SD (R533). -/
  | sd (rt : RegNo) (offset : BitVec 16) (base : RegNo)
  /-- SWL (R534). -/
  | swl (rt : RegNo) (offset : BitVec 16) (base : RegNo)
  /-- SWR (R535). -/
  | swr (rt : RegNo) (offset : BitVec 16) (base : RegNo)
  /-- SDL (R536). -/
  | sdl (rt : RegNo) (offset : BitVec 16) (base : RegNo)
  /-- SDR (R537). -/
  | sdr (rt : RegNo) (offset : BitVec 16) (base : RegNo)
  /-- LL (R540). -/
  | ll (rt : RegNo) (offset : BitVec 16) (base : RegNo)
  /-- SC (R541). -/
  | sc (rt : RegNo) (offset : BitVec 16) (base : RegNo)
  /-- LLD (R543). -/
  | lld (rt : RegNo) (offset : BitVec 16) (base : RegNo)
  /-- SCD (R544). -/
  | scd (rt : RegNo) (offset : BitVec 16) (base : RegNo)
  /-- SYNC (R560). -/
  | sync
  /-- MFC0 (R575). -/
  | mfc0 (rt : RegNo) (rd : RegNo)
  /-- DMFC0 (R576). -/
  | dmfc0 (rt : RegNo) (rd : RegNo)
  /-- MTC0 (R577). -/
  | mtc0 (rt : RegNo) (rd : RegNo)
  /-- DMTC0 (R578). -/
  | dmtc0 (rt : RegNo) (rd : RegNo)
  /-- TLBR (R593). -/
  | tlbr
  /-- TLBWI (R594). -/
  | tlbwi
  /-- TLBWR (R595). -/
  | tlbwr
  /-- TLBP (R596). -/
  | tlbp
  /-- ERET (R600). -/
  | eret
  /-- SYSCALL (R605). -/
  | syscall (code : BitVec 20)
  /-- BREAK (R606). -/
  | break_ (code : BitVec 20)
  /-- TGE (R608). -/
  | tge (rs : RegNo) (rt : RegNo) (code : BitVec 10)
  /-- TGEU (R609). -/
  | tgeu (rs : RegNo) (rt : RegNo) (code : BitVec 10)
  /-- TLT (R610). -/
  | tlt (rs : RegNo) (rt : RegNo) (code : BitVec 10)
  /-- TLTU (R611). -/
  | tltu (rs : RegNo) (rt : RegNo) (code : BitVec 10)
  /-- TEQ (R612). -/
  | teq (rs : RegNo) (rt : RegNo) (code : BitVec 10)
  /-- TNE (R613). -/
  | tne (rs : RegNo) (rt : RegNo) (code : BitVec 10)
  /-- TGEI (R614). -/
  | tgei (rs : RegNo) (imm : BitVec 16)
  /-- TGEIU (R615). -/
  | tgeiu (rs : RegNo) (imm : BitVec 16)
  /-- TLTI (R616). -/
  | tlti (rs : RegNo) (imm : BitVec 16)
  /-- TLTIU (R617). -/
  | tltiu (rs : RegNo) (imm : BitVec 16)
  /-- TEQI (R618). -/
  | teqi (rs : RegNo) (imm : BitVec 16)
  /-- TNEI (R619). -/
  | tnei (rs : RegNo) (imm : BitVec 16)
  /-- CACHE (R620). -/
  | cache (op : BitVec 5) (offset : BitVec 16) (base : RegNo)
  /-- COP1 (R640). -/
  | cop1 (payload : BitVec 26)
  /-- LWC1 (R640). -/
  | lwc1 (rt : RegNo) (offset : BitVec 16) (base : RegNo)
  /-- LDC1 (R640). -/
  | ldc1 (rt : RegNo) (offset : BitVec 16) (base : RegNo)
  /-- SWC1 (R640). -/
  | swc1 (rt : RegNo) (offset : BitVec 16) (base : RegNo)
  /-- SDC1 (R640). -/
  | sdc1 (rt : RegNo) (offset : BitVec 16) (base : RegNo)
  /-- COP2 (R641). -/
  | cop2 (payload : BitVec 26)
  /-- LWC2 (R641). -/
  | lwc2 (rt : RegNo) (offset : BitVec 16) (base : RegNo)
  /-- LDC2 (R641). -/
  | ldc2 (rt : RegNo) (offset : BitVec 16) (base : RegNo)
  /-- SWC2 (R641). -/
  | swc2 (rt : RegNo) (offset : BitVec 16) (base : RegNo)
  /-- SDC2 (R641). -/
  | sdc2 (rt : RegNo) (offset : BitVec 16) (base : RegNo)
deriving DecidableEq, Repr

end Sys2Proof
end

