-- ==== Sys2Proof/WellFormed.lean ====
section
/-! DEFINITION. Well-formed instructions: the terms whose encoding the spec gives a defined form. Field widths are carried
by the types of Syntax.lean, so what is left to check are the register combinations MIPS III leaves undefined (R453, R474
to R477) and the CACHE operation codes (R621 to R623). The decoder decodes these forms too (their words are rows of the
table, vector VD21), and their meaning refuses them by name. -/

namespace Sys2Proof

/-- A CACHE operation code the spec defines: a primary cache (R623) and an operation of R621 or R622 with a meaning. -/
def cacheOpDefined (op : BitVec 5) : Bool :=
  match op.extractLsb' 0 2, op.extractLsb' 2 3 with
  | 0#2, o => o != 3#3 && o != 7#3
  | 1#2, o => o != 3#3 && o != 7#3
  | _, _ => false

/-- The check: JALR with `rd ≠ rs` (R453), a linking branch with `rs ≠ 31` (R474 to R477), a defined CACHE operation. -/
def Instr.wf : Instr → Bool
  | .jalr rd rs => rd != rs
  | .bltzal rs _ => rs != 31#5
  | .bgezal rs _ => rs != 31#5
  | .bltzall rs _ => rs != 31#5
  | .bgezall rs _ => rs != 31#5
  | .cache op _ _ => cacheOpDefined op
  | _ => true

end Sys2Proof
end

