-- ==== Sys2Proof/Decode.lean ====
section
/-! DEFINITION. The decoder (30_encoding.md R260 to R276), total on every word and every list of bytes, and after it the
encoder written from the same encoding tables. The static two-level table of R276 is the match on the primary opcode
(R265) and, under SPECIAL, REGIMM and COP0, the match on the second selector (R266 to R268). -/

namespace Sys2Proof

/-- The class of a word (R276): a row of the opcode table, a reserved encoding (R271; `cop0` says whether it lies in the
COP0 group, whose usability check comes first, R570), or a row with a non-zero must-be-zero field (R272). -/
inductive Decoded where
  | instr (i : Instr)
  | reserved (cop0 : Bool)
  | mustBeZero
deriving DecidableEq, Repr

/-- What the decoder's descriptor records besides the instruction (R264): which GPR operands it reads, whether it is a
branch or jump, and whether it is a 64-bit operation (R275). -/
structure Flags where
  needsRs : Bool := false
  needsRt : Bool := false
  branch  : Bool := false
  ops64   : Bool := false
deriving DecidableEq, Repr


/-- `op` (R262). -/
def fieldOp (w : Word32) : BitVec 6 := w.extractLsb' 26 6

/-- `rs` (R262). -/
def fieldRs (w : Word32) : BitVec 5 := w.extractLsb' 21 5

/-- `rt` (R262). -/
def fieldRt (w : Word32) : BitVec 5 := w.extractLsb' 16 5

/-- `rd` (R262). -/
def fieldRd (w : Word32) : BitVec 5 := w.extractLsb' 11 5

/-- `sa` (R262). -/
def fieldSa (w : Word32) : BitVec 5 := w.extractLsb' 6 5

/-- `funct` (R262). -/
def fieldFunct (w : Word32) : BitVec 6 := w.extractLsb' 0 6

/-- `imm` (R262). -/
def fieldImm (w : Word32) : BitVec 16 := w.extractLsb' 0 16

/-- `target` (R262). -/
def fieldTarget (w : Word32) : BitVec 26 := w.extractLsb' 0 26

/-- `code` of SYSCALL and BREAK, `iw[25:6]` (R262). -/
def fieldCode20 (w : Word32) : BitVec 20 := w.extractLsb' 6 20

/-- `code` of the register traps, `iw[15:6]` (R262). -/
def fieldCode10 (w : Word32) : BitVec 10 := w.extractLsb' 6 10

/-- A row whose must-be-zero fields are zero is its instruction, any other word of the row is a violation (R272). -/
def whenZero (zero : Prop) [Decidable zero] (i : Instr) : Decoded := if zero then .instr i else .mustBeZero

/-- The SPECIAL group, by `funct` (R266). -/
def decodeSpecial (w : Word32) : Decoded :=
  match fieldFunct w with
  | 0x00#6 => whenZero (fieldRs w = 0#5) (.sll (fieldRd w) (fieldRt w) (fieldSa w))
  | 0x02#6 => whenZero (fieldRs w = 0#5) (.srl (fieldRd w) (fieldRt w) (fieldSa w))
  | 0x03#6 => whenZero (fieldRs w = 0#5) (.sra (fieldRd w) (fieldRt w) (fieldSa w))
  | 0x04#6 => whenZero (fieldSa w = 0#5) (.sllv (fieldRd w) (fieldRt w) (fieldRs w))
  | 0x06#6 => whenZero (fieldSa w = 0#5) (.srlv (fieldRd w) (fieldRt w) (fieldRs w))
  | 0x07#6 => whenZero (fieldSa w = 0#5) (.srav (fieldRd w) (fieldRt w) (fieldRs w))
  | 0x08#6 => whenZero (fieldRt w = 0#5 ∧ fieldRd w = 0#5 ∧ fieldSa w = 0#5) (.jr (fieldRs w))
  | 0x09#6 => whenZero (fieldRt w = 0#5 ∧ fieldSa w = 0#5) (.jalr (fieldRd w) (fieldRs w))
  | 0x0C#6 => .instr (.syscall (fieldCode20 w))
  | 0x0D#6 => .instr (.break_ (fieldCode20 w))
  | 0x0F#6 => whenZero (fieldRs w = 0#5 ∧ fieldRt w = 0#5 ∧ fieldRd w = 0#5 ∧ fieldSa w = 0#5) (.sync)
  | 0x10#6 => whenZero (fieldRs w = 0#5 ∧ fieldRt w = 0#5 ∧ fieldSa w = 0#5) (.mfhi (fieldRd w))
  | 0x11#6 => whenZero (fieldRt w = 0#5 ∧ fieldRd w = 0#5 ∧ fieldSa w = 0#5) (.mthi (fieldRs w))
  | 0x12#6 => whenZero (fieldRs w = 0#5 ∧ fieldRt w = 0#5 ∧ fieldSa w = 0#5) (.mflo (fieldRd w))
  | 0x13#6 => whenZero (fieldRt w = 0#5 ∧ fieldRd w = 0#5 ∧ fieldSa w = 0#5) (.mtlo (fieldRs w))
  | 0x14#6 => whenZero (fieldSa w = 0#5) (.dsllv (fieldRd w) (fieldRt w) (fieldRs w))
  | 0x16#6 => whenZero (fieldSa w = 0#5) (.dsrlv (fieldRd w) (fieldRt w) (fieldRs w))
  | 0x17#6 => whenZero (fieldSa w = 0#5) (.dsrav (fieldRd w) (fieldRt w) (fieldRs w))
  | 0x18#6 => whenZero (fieldRd w = 0#5 ∧ fieldSa w = 0#5) (.mult (fieldRs w) (fieldRt w))
  | 0x19#6 => whenZero (fieldRd w = 0#5 ∧ fieldSa w = 0#5) (.multu (fieldRs w) (fieldRt w))
  | 0x1A#6 => whenZero (fieldRd w = 0#5 ∧ fieldSa w = 0#5) (.div (fieldRs w) (fieldRt w))
  | 0x1B#6 => whenZero (fieldRd w = 0#5 ∧ fieldSa w = 0#5) (.divu (fieldRs w) (fieldRt w))
  | 0x1C#6 => whenZero (fieldRd w = 0#5 ∧ fieldSa w = 0#5) (.dmult (fieldRs w) (fieldRt w))
  | 0x1D#6 => whenZero (fieldRd w = 0#5 ∧ fieldSa w = 0#5) (.dmultu (fieldRs w) (fieldRt w))
  | 0x1E#6 => whenZero (fieldRd w = 0#5 ∧ fieldSa w = 0#5) (.ddiv (fieldRs w) (fieldRt w))
  | 0x1F#6 => whenZero (fieldRd w = 0#5 ∧ fieldSa w = 0#5) (.ddivu (fieldRs w) (fieldRt w))
  | 0x20#6 => whenZero (fieldSa w = 0#5) (.add (fieldRd w) (fieldRs w) (fieldRt w))
  | 0x21#6 => whenZero (fieldSa w = 0#5) (.addu (fieldRd w) (fieldRs w) (fieldRt w))
  | 0x22#6 => whenZero (fieldSa w = 0#5) (.sub (fieldRd w) (fieldRs w) (fieldRt w))
  | 0x23#6 => whenZero (fieldSa w = 0#5) (.subu (fieldRd w) (fieldRs w) (fieldRt w))
  | 0x24#6 => whenZero (fieldSa w = 0#5) (.and_ (fieldRd w) (fieldRs w) (fieldRt w))
  | 0x25#6 => whenZero (fieldSa w = 0#5) (.or_ (fieldRd w) (fieldRs w) (fieldRt w))
  | 0x26#6 => whenZero (fieldSa w = 0#5) (.xor_ (fieldRd w) (fieldRs w) (fieldRt w))
  | 0x27#6 => whenZero (fieldSa w = 0#5) (.nor_ (fieldRd w) (fieldRs w) (fieldRt w))
  | 0x2A#6 => whenZero (fieldSa w = 0#5) (.slt (fieldRd w) (fieldRs w) (fieldRt w))
  | 0x2B#6 => whenZero (fieldSa w = 0#5) (.sltu (fieldRd w) (fieldRs w) (fieldRt w))
  | 0x2C#6 => whenZero (fieldSa w = 0#5) (.dadd (fieldRd w) (fieldRs w) (fieldRt w))
  | 0x2D#6 => whenZero (fieldSa w = 0#5) (.daddu (fieldRd w) (fieldRs w) (fieldRt w))
  | 0x2E#6 => whenZero (fieldSa w = 0#5) (.dsub (fieldRd w) (fieldRs w) (fieldRt w))
  | 0x2F#6 => whenZero (fieldSa w = 0#5) (.dsubu (fieldRd w) (fieldRs w) (fieldRt w))
  | 0x30#6 => .instr (.tge (fieldRs w) (fieldRt w) (fieldCode10 w))
  | 0x31#6 => .instr (.tgeu (fieldRs w) (fieldRt w) (fieldCode10 w))
  | 0x32#6 => .instr (.tlt (fieldRs w) (fieldRt w) (fieldCode10 w))
  | 0x33#6 => .instr (.tltu (fieldRs w) (fieldRt w) (fieldCode10 w))
  | 0x34#6 => .instr (.teq (fieldRs w) (fieldRt w) (fieldCode10 w))
  | 0x36#6 => .instr (.tne (fieldRs w) (fieldRt w) (fieldCode10 w))
  | 0x38#6 => whenZero (fieldRs w = 0#5) (.dsll (fieldRd w) (fieldRt w) (fieldSa w))
  | 0x3A#6 => whenZero (fieldRs w = 0#5) (.dsrl (fieldRd w) (fieldRt w) (fieldSa w))
  | 0x3B#6 => whenZero (fieldRs w = 0#5) (.dsra (fieldRd w) (fieldRt w) (fieldSa w))
  | 0x3C#6 => whenZero (fieldRs w = 0#5) (.dsll32 (fieldRd w) (fieldRt w) (fieldSa w))
  | 0x3E#6 => whenZero (fieldRs w = 0#5) (.dsrl32 (fieldRd w) (fieldRt w) (fieldSa w))
  | 0x3F#6 => whenZero (fieldRs w = 0#5) (.dsra32 (fieldRd w) (fieldRt w) (fieldSa w))
  | _ => .reserved false

/-- The REGIMM group, by `rt` (R267). -/
def decodeRegimm (w : Word32) : Decoded :=
  match fieldRt w with
  | 0x00#5 => .instr (.bltz (fieldRs w) (fieldImm w))
  | 0x01#5 => .instr (.bgez (fieldRs w) (fieldImm w))
  | 0x02#5 => .instr (.bltzl (fieldRs w) (fieldImm w))
  | 0x03#5 => .instr (.bgezl (fieldRs w) (fieldImm w))
  | 0x08#5 => .instr (.tgei (fieldRs w) (fieldImm w))
  | 0x09#5 => .instr (.tgeiu (fieldRs w) (fieldImm w))
  | 0x0A#5 => .instr (.tlti (fieldRs w) (fieldImm w))
  | 0x0B#5 => .instr (.tltiu (fieldRs w) (fieldImm w))
  | 0x0C#5 => .instr (.teqi (fieldRs w) (fieldImm w))
  | 0x0E#5 => .instr (.tnei (fieldRs w) (fieldImm w))
  | 0x10#5 => .instr (.bltzal (fieldRs w) (fieldImm w))
  | 0x11#5 => .instr (.bgezal (fieldRs w) (fieldImm w))
  | 0x12#5 => .instr (.bltzall (fieldRs w) (fieldImm w))
  | 0x13#5 => .instr (.bgezall (fieldRs w) (fieldImm w))
  | _ => .reserved false

/-- The COP0 group: by `rs` when `iw[25] = 0`, by `funct` when it is 1 (R268). -/
def decodeCop0 (w : Word32) : Decoded :=
  match w.extractLsb' 25 1 with
  | 0#1 =>
    match fieldRs w with
    | 0x00#5 => whenZero (w.extractLsb' 0 11 = 0#11) (.mfc0 (fieldRt w) (fieldRd w))
    | 0x01#5 => whenZero (w.extractLsb' 0 11 = 0#11) (.dmfc0 (fieldRt w) (fieldRd w))
    | 0x04#5 => whenZero (w.extractLsb' 0 11 = 0#11) (.mtc0 (fieldRt w) (fieldRd w))
    | 0x05#5 => whenZero (w.extractLsb' 0 11 = 0#11) (.dmtc0 (fieldRt w) (fieldRd w))
    | _ => .reserved true
  | _ =>
    match fieldFunct w with
    | 0x01#6 => whenZero (w.extractLsb' 6 19 = 0#19) (.tlbr)
    | 0x02#6 => whenZero (w.extractLsb' 6 19 = 0#19) (.tlbwi)
    | 0x06#6 => whenZero (w.extractLsb' 6 19 = 0#19) (.tlbwr)
    | 0x08#6 => whenZero (w.extractLsb' 6 19 = 0#19) (.tlbp)
    | 0x18#6 => whenZero (w.extractLsb' 6 19 = 0#19) (.eret)
    | _ => .reserved true

/-- The decoder on one instruction word, by the primary opcode (R265, R276). -/
def decode (w : Word32) : Decoded :=
  match fieldOp w with
  | 0x00#6 => decodeSpecial w
  | 0x01#6 => decodeRegimm w
  | 0x10#6 => decodeCop0 w
  | 0x02#6 => .instr (.j (fieldTarget w))
  | 0x03#6 => .instr (.jal (fieldTarget w))
  | 0x04#6 => .instr (.beq (fieldRs w) (fieldRt w) (fieldImm w))
  | 0x05#6 => .instr (.bne (fieldRs w) (fieldRt w) (fieldImm w))
  | 0x06#6 => whenZero (fieldRt w = 0#5) (.blez (fieldRs w) (fieldImm w))
  | 0x07#6 => whenZero (fieldRt w = 0#5) (.bgtz (fieldRs w) (fieldImm w))
  | 0x08#6 => .instr (.addi (fieldRt w) (fieldRs w) (fieldImm w))
  | 0x09#6 => .instr (.addiu (fieldRt w) (fieldRs w) (fieldImm w))
  | 0x0A#6 => .instr (.slti (fieldRt w) (fieldRs w) (fieldImm w))
  | 0x0B#6 => .instr (.sltiu (fieldRt w) (fieldRs w) (fieldImm w))
  | 0x0C#6 => .instr (.andi (fieldRt w) (fieldRs w) (fieldImm w))
  | 0x0D#6 => .instr (.ori (fieldRt w) (fieldRs w) (fieldImm w))
  | 0x0E#6 => .instr (.xori (fieldRt w) (fieldRs w) (fieldImm w))
  | 0x0F#6 => whenZero (fieldRs w = 0#5) (.lui (fieldRt w) (fieldImm w))
  | 0x11#6 => .instr (.cop1 (fieldTarget w))
  | 0x12#6 => .instr (.cop2 (fieldTarget w))
  | 0x14#6 => .instr (.beql (fieldRs w) (fieldRt w) (fieldImm w))
  | 0x15#6 => .instr (.bnel (fieldRs w) (fieldRt w) (fieldImm w))
  | 0x16#6 => whenZero (fieldRt w = 0#5) (.blezl (fieldRs w) (fieldImm w))
  | 0x17#6 => whenZero (fieldRt w = 0#5) (.bgtzl (fieldRs w) (fieldImm w))
  | 0x18#6 => .instr (.daddi (fieldRt w) (fieldRs w) (fieldImm w))
  | 0x19#6 => .instr (.daddiu (fieldRt w) (fieldRs w) (fieldImm w))
  | 0x1A#6 => .instr (.ldl (fieldRt w) (fieldImm w) (fieldRs w))
  | 0x1B#6 => .instr (.ldr (fieldRt w) (fieldImm w) (fieldRs w))
  | 0x20#6 => .instr (.lb (fieldRt w) (fieldImm w) (fieldRs w))
  | 0x21#6 => .instr (.lh (fieldRt w) (fieldImm w) (fieldRs w))
  | 0x22#6 => .instr (.lwl (fieldRt w) (fieldImm w) (fieldRs w))
  | 0x23#6 => .instr (.lw (fieldRt w) (fieldImm w) (fieldRs w))
  | 0x24#6 => .instr (.lbu (fieldRt w) (fieldImm w) (fieldRs w))
  | 0x25#6 => .instr (.lhu (fieldRt w) (fieldImm w) (fieldRs w))
  | 0x26#6 => .instr (.lwr (fieldRt w) (fieldImm w) (fieldRs w))
  | 0x27#6 => .instr (.lwu (fieldRt w) (fieldImm w) (fieldRs w))
  | 0x28#6 => .instr (.sb (fieldRt w) (fieldImm w) (fieldRs w))
  | 0x29#6 => .instr (.sh (fieldRt w) (fieldImm w) (fieldRs w))
  | 0x2A#6 => .instr (.swl (fieldRt w) (fieldImm w) (fieldRs w))
  | 0x2B#6 => .instr (.sw (fieldRt w) (fieldImm w) (fieldRs w))
  | 0x2C#6 => .instr (.sdl (fieldRt w) (fieldImm w) (fieldRs w))
  | 0x2D#6 => .instr (.sdr (fieldRt w) (fieldImm w) (fieldRs w))
  | 0x2E#6 => .instr (.swr (fieldRt w) (fieldImm w) (fieldRs w))
  | 0x2F#6 => .instr (.cache (fieldRt w) (fieldImm w) (fieldRs w))
  | 0x30#6 => .instr (.ll (fieldRt w) (fieldImm w) (fieldRs w))
  | 0x31#6 => .instr (.lwc1 (fieldRt w) (fieldImm w) (fieldRs w))
  | 0x32#6 => .instr (.lwc2 (fieldRt w) (fieldImm w) (fieldRs w))
  | 0x34#6 => .instr (.lld (fieldRt w) (fieldImm w) (fieldRs w))
  | 0x35#6 => .instr (.ldc1 (fieldRt w) (fieldImm w) (fieldRs w))
  | 0x36#6 => .instr (.ldc2 (fieldRt w) (fieldImm w) (fieldRs w))
  | 0x37#6 => .instr (.ld (fieldRt w) (fieldImm w) (fieldRs w))
  | 0x38#6 => .instr (.sc (fieldRt w) (fieldImm w) (fieldRs w))
  | 0x39#6 => .instr (.swc1 (fieldRt w) (fieldImm w) (fieldRs w))
  | 0x3A#6 => .instr (.swc2 (fieldRt w) (fieldImm w) (fieldRs w))
  | 0x3C#6 => .instr (.scd (fieldRt w) (fieldImm w) (fieldRs w))
  | 0x3D#6 => .instr (.sdc1 (fieldRt w) (fieldImm w) (fieldRs w))
  | 0x3E#6 => .instr (.sdc2 (fieldRt w) (fieldImm w) (fieldRs w))
  | 0x3F#6 => .instr (.sd (fieldRt w) (fieldImm w) (fieldRs w))
  | _ => .reserved false

/-- The decoder on bytes: the class of the one big-endian word they begin with, and the bytes after it; fewer than four
bytes are no instruction word (R260, R140). -/
def decodeBytes : List Byte → Option (Decoded × List Byte)
  | b0 :: b1 :: b2 :: b3 :: rest => some (decode (b0 ++ b1 ++ b2 ++ b3), rest)
  | _ => none

/-- The four bytes of a word as memory holds them, the most significant first (R140). -/
def wordBytes (w : Word32) : List Byte :=
  [w.extractLsb' 24 8, w.extractLsb' 16 8, w.extractLsb' 8 8, w.extractLsb' 0 8]

/-- The instruction the decoder reads from a word numbered as the opcode table numbers it: laid out big-endian and
decoded. Every instruction is one 32-bit word (R260), so a longer pattern is none. -/
def decodeTableWord (nbits w : Nat) : Option Instr :=
  if nbits ≤ 32 ∧ w < 2 ^ 32 then
    match decodeBytes (wordBytes (BitVec.ofNat 32 w)) with
    | some (.instr i, _) => some i
    | _ => none
  else none


/-- The operand-need flags of a COP1 word (R264, R640): the moves to the unit (MTC1, DMTC1, CTC1) read `rt`, and the BC1
group, sub-opcode 8 with `rt` below 4, are branches. -/
def cop1Flags (payload : BitVec 26) : Flags :=
  let sub := payload.extractLsb' 21 5
  { needsRt := decide (sub = 4#5 ∨ sub = 5#5 ∨ sub = 6#5), branch := decide (sub = 8#5 ∧ payload.extractLsb' 16 5 < 4#5) }

/-- The descriptor flags of every instruction (R264, R275), as the opcode table gives them per row; those of a COP1 word are the
unit's (log entry 9). -/
def Instr.flags : Instr → Flags
  | .add _ _ _ => { needsRs := true, needsRt := true }
  | .addu _ _ _ => { needsRs := true, needsRt := true }
  | .sub _ _ _ => { needsRs := true, needsRt := true }
  | .subu _ _ _ => { needsRs := true, needsRt := true }
  | .dadd _ _ _ => { needsRs := true, needsRt := true, ops64 := true }
  | .daddu _ _ _ => { needsRs := true, needsRt := true, ops64 := true }
  | .dsub _ _ _ => { needsRs := true, needsRt := true, ops64 := true }
  | .dsubu _ _ _ => { needsRs := true, needsRt := true, ops64 := true }
  | .slt _ _ _ => { needsRs := true, needsRt := true }
  | .sltu _ _ _ => { needsRs := true, needsRt := true }
  | .and_ _ _ _ => { needsRs := true, needsRt := true }
  | .or_ _ _ _ => { needsRs := true, needsRt := true }
  | .xor_ _ _ _ => { needsRs := true, needsRt := true }
  | .nor_ _ _ _ => { needsRs := true, needsRt := true }
  | .addi _ _ _ => { needsRs := true }
  | .addiu _ _ _ => { needsRs := true }
  | .daddi _ _ _ => { needsRs := true, ops64 := true }
  | .daddiu _ _ _ => { needsRs := true, ops64 := true }
  | .slti _ _ _ => { needsRs := true }
  | .sltiu _ _ _ => { needsRs := true }
  | .andi _ _ _ => { needsRs := true }
  | .ori _ _ _ => { needsRs := true }
  | .xori _ _ _ => { needsRs := true }
  | .lui _ _ => {}
  | .sll _ _ _ => { needsRt := true }
  | .srl _ _ _ => { needsRt := true }
  | .sra _ _ _ => { needsRt := true }
  | .dsll _ _ _ => { needsRt := true, ops64 := true }
  | .dsrl _ _ _ => { needsRt := true, ops64 := true }
  | .dsra _ _ _ => { needsRt := true, ops64 := true }
  | .dsll32 _ _ _ => { needsRt := true, ops64 := true }
  | .dsrl32 _ _ _ => { needsRt := true, ops64 := true }
  | .dsra32 _ _ _ => { needsRt := true, ops64 := true }
  | .sllv _ _ _ => { needsRs := true, needsRt := true }
  | .srlv _ _ _ => { needsRs := true, needsRt := true }
  | .srav _ _ _ => { needsRs := true, needsRt := true }
  | .dsllv _ _ _ => { needsRs := true, needsRt := true, ops64 := true }
  | .dsrlv _ _ _ => { needsRs := true, needsRt := true, ops64 := true }
  | .dsrav _ _ _ => { needsRs := true, needsRt := true, ops64 := true }
  | .mult _ _ => { needsRs := true, needsRt := true }
  | .multu _ _ => { needsRs := true, needsRt := true }
  | .dmult _ _ => { needsRs := true, needsRt := true, ops64 := true }
  | .dmultu _ _ => { needsRs := true, needsRt := true, ops64 := true }
  | .div _ _ => { needsRs := true, needsRt := true }
  | .divu _ _ => { needsRs := true, needsRt := true }
  | .ddiv _ _ => { needsRs := true, needsRt := true, ops64 := true }
  | .ddivu _ _ => { needsRs := true, needsRt := true, ops64 := true }
  | .mfhi _ => {}
  | .mflo _ => {}
  | .mthi _ => { needsRs := true }
  | .mtlo _ => { needsRs := true }
  | .j _ => { branch := true }
  | .jal _ => { branch := true }
  | .jr _ => { needsRs := true, branch := true }
  | .jalr _ _ => { needsRs := true, branch := true }
  | .beq _ _ _ => { needsRs := true, needsRt := true, branch := true }
  | .bne _ _ _ => { needsRs := true, needsRt := true, branch := true }
  | .blez _ _ => { needsRs := true, branch := true }
  | .bgtz _ _ => { needsRs := true, branch := true }
  | .beql _ _ _ => { needsRs := true, needsRt := true, branch := true }
  | .bnel _ _ _ => { needsRs := true, needsRt := true, branch := true }
  | .blezl _ _ => { needsRs := true, branch := true }
  | .bgtzl _ _ => { needsRs := true, branch := true }
  | .bltz _ _ => { needsRs := true, branch := true }
  | .bgez _ _ => { needsRs := true, branch := true }
  | .bltzl _ _ => { needsRs := true, branch := true }
  | .bgezl _ _ => { needsRs := true, branch := true }
  | .bltzal _ _ => { needsRs := true, branch := true }
  | .bgezal _ _ => { needsRs := true, branch := true }
  | .bltzall _ _ => { needsRs := true, branch := true }
  | .bgezall _ _ => { needsRs := true, branch := true }
  | .lb _ _ _ => { needsRs := true }
  | .lbu _ _ _ => { needsRs := true }
  | .lh _ _ _ => { needsRs := true }
  | .lhu _ _ _ => { needsRs := true }
  | .lw _ _ _ => { needsRs := true }
  | .lwu _ _ _ => { needsRs := true, ops64 := true }
  | .ld _ _ _ => { needsRs := true, ops64 := true }
  | .lwl _ _ _ => { needsRs := true, needsRt := true }
  | .lwr _ _ _ => { needsRs := true, needsRt := true }
  | .ldl _ _ _ => { needsRs := true, needsRt := true, ops64 := true }
  | .ldr _ _ _ => { needsRs := true, needsRt := true, ops64 := true }
  | .sb _ _ _ => { needsRs := true, needsRt := true }
  | .sh _ _ _ => { needsRs := true, needsRt := true }
  | .sw _ _ _ => { needsRs := true, needsRt := true }
  | .sd _ _ _ => { needsRs := true, needsRt := true, ops64 := true }
  | .swl _ _ _ => { needsRs := true, needsRt := true }
  | .swr _ _ _ => { needsRs := true, needsRt := true }
  | .sdl _ _ _ => { needsRs := true, needsRt := true, ops64 := true }
  | .sdr _ _ _ => { needsRs := true, needsRt := true, ops64 := true }
  | .ll _ _ _ => { needsRs := true }
  | .sc _ _ _ => { needsRs := true, needsRt := true }
  | .lld _ _ _ => { needsRs := true, ops64 := true }
  | .scd _ _ _ => { needsRs := true, needsRt := true, ops64 := true }
  | .sync => {}
  | .mfc0 _ _ => {}
  | .dmfc0 _ _ => {}
  | .mtc0 _ _ => { needsRt := true }
  | .dmtc0 _ _ => { needsRt := true }
  | .tlbr => {}
  | .tlbwi => {}
  | .tlbwr => {}
  | .tlbp => {}
  | .eret => {}
  | .syscall _ => {}
  | .break_ _ => {}
  | .tge _ _ _ => { needsRs := true, needsRt := true }
  | .tgeu _ _ _ => { needsRs := true, needsRt := true }
  | .tlt _ _ _ => { needsRs := true, needsRt := true }
  | .tltu _ _ _ => { needsRs := true, needsRt := true }
  | .teq _ _ _ => { needsRs := true, needsRt := true }
  | .tne _ _ _ => { needsRs := true, needsRt := true }
  | .tgei _ _ => { needsRs := true }
  | .tgeiu _ _ => { needsRs := true }
  | .tlti _ _ => { needsRs := true }
  | .tltiu _ _ => { needsRs := true }
  | .teqi _ _ => { needsRs := true }
  | .tnei _ _ => { needsRs := true }
  | .cache _ _ _ => { needsRs := true }
  | .cop1 payload => cop1Flags payload
  | .lwc1 _ _ _ => { needsRs := true }
  | .ldc1 _ _ _ => { needsRs := true }
  | .swc1 _ _ _ => { needsRs := true }
  | .sdc1 _ _ _ => { needsRs := true }
  | .cop2 _ => {}
  | .lwc2 _ _ _ => { needsRs := true }
  | .ldc2 _ _ _ => { needsRs := true }
  | .swc2 _ _ _ => { needsRs := true }
  | .sdc2 _ _ _ => { needsRs := true }

/-- R-type word (R261). -/
def encR (rs rt rd : RegNo) (sa : BitVec 5) (funct : BitVec 6) : Word32 := 0#6 ++ rs ++ rt ++ rd ++ sa ++ funct

/-- I-type word (R261). -/
def encI (op : BitVec 6) (rs rt : RegNo) (imm : BitVec 16) : Word32 := op ++ rs ++ rt ++ imm

/-- COP0 move word (R261). -/
def encCop0 (sub : BitVec 5) (rt rd : RegNo) : Word32 := 0x10#6 ++ sub ++ rt ++ rd ++ 0#11

/-- COP0 CO word (R261). -/
def encCo (funct : BitVec 6) : Word32 := 0x10#6 ++ 1#1 ++ 0#19 ++ funct

/-- The word of an instruction (R261 to R270): every must-be-zero field 0 (R272). -/
def encode : Instr → Word32
  | .add rd rs rt => encR rs rt rd 0#5 0x20#6
  | .addu rd rs rt => encR rs rt rd 0#5 0x21#6
  | .sub rd rs rt => encR rs rt rd 0#5 0x22#6
  | .subu rd rs rt => encR rs rt rd 0#5 0x23#6
  | .dadd rd rs rt => encR rs rt rd 0#5 0x2C#6
  | .daddu rd rs rt => encR rs rt rd 0#5 0x2D#6
  | .dsub rd rs rt => encR rs rt rd 0#5 0x2E#6
  | .dsubu rd rs rt => encR rs rt rd 0#5 0x2F#6
  | .slt rd rs rt => encR rs rt rd 0#5 0x2A#6
  | .sltu rd rs rt => encR rs rt rd 0#5 0x2B#6
  | .and_ rd rs rt => encR rs rt rd 0#5 0x24#6
  | .or_ rd rs rt => encR rs rt rd 0#5 0x25#6
  | .xor_ rd rs rt => encR rs rt rd 0#5 0x26#6
  | .nor_ rd rs rt => encR rs rt rd 0#5 0x27#6
  | .addi rt rs imm => encI 0x08#6 rs rt imm
  | .addiu rt rs imm => encI 0x09#6 rs rt imm
  | .daddi rt rs imm => encI 0x18#6 rs rt imm
  | .daddiu rt rs imm => encI 0x19#6 rs rt imm
  | .slti rt rs imm => encI 0x0A#6 rs rt imm
  | .sltiu rt rs imm => encI 0x0B#6 rs rt imm
  | .andi rt rs imm => encI 0x0C#6 rs rt imm
  | .ori rt rs imm => encI 0x0D#6 rs rt imm
  | .xori rt rs imm => encI 0x0E#6 rs rt imm
  | .lui rt imm => encI 0x0F#6 0#5 rt imm
  | .sll rd rt sa => encR 0#5 rt rd sa 0x00#6
  | .srl rd rt sa => encR 0#5 rt rd sa 0x02#6
  | .sra rd rt sa => encR 0#5 rt rd sa 0x03#6
  | .dsll rd rt sa => encR 0#5 rt rd sa 0x38#6
  | .dsrl rd rt sa => encR 0#5 rt rd sa 0x3A#6
  | .dsra rd rt sa => encR 0#5 rt rd sa 0x3B#6
  | .dsll32 rd rt sa => encR 0#5 rt rd sa 0x3C#6
  | .dsrl32 rd rt sa => encR 0#5 rt rd sa 0x3E#6
  | .dsra32 rd rt sa => encR 0#5 rt rd sa 0x3F#6
  | .sllv rd rt rs => encR rs rt rd 0#5 0x04#6
  | .srlv rd rt rs => encR rs rt rd 0#5 0x06#6
  | .srav rd rt rs => encR rs rt rd 0#5 0x07#6
  | .dsllv rd rt rs => encR rs rt rd 0#5 0x14#6
  | .dsrlv rd rt rs => encR rs rt rd 0#5 0x16#6
  | .dsrav rd rt rs => encR rs rt rd 0#5 0x17#6
  | .mult rs rt => encR rs rt 0#5 0#5 0x18#6
  | .multu rs rt => encR rs rt 0#5 0#5 0x19#6
  | .dmult rs rt => encR rs rt 0#5 0#5 0x1C#6
  | .dmultu rs rt => encR rs rt 0#5 0#5 0x1D#6
  | .div rs rt => encR rs rt 0#5 0#5 0x1A#6
  | .divu rs rt => encR rs rt 0#5 0#5 0x1B#6
  | .ddiv rs rt => encR rs rt 0#5 0#5 0x1E#6
  | .ddivu rs rt => encR rs rt 0#5 0#5 0x1F#6
  | .mfhi rd => encR 0#5 0#5 rd 0#5 0x10#6
  | .mflo rd => encR 0#5 0#5 rd 0#5 0x12#6
  | .mthi rs => encR rs 0#5 0#5 0#5 0x11#6
  | .mtlo rs => encR rs 0#5 0#5 0#5 0x13#6
  | .j target => 0x02#6 ++ target
  | .jal target => 0x03#6 ++ target
  | .jr rs => encR rs 0#5 0#5 0#5 0x08#6
  | .jalr rd rs => encR rs 0#5 rd 0#5 0x09#6
  | .beq rs rt imm => encI 0x04#6 rs rt imm
  | .bne rs rt imm => encI 0x05#6 rs rt imm
  | .blez rs imm => encI 0x06#6 rs 0#5 imm
  | .bgtz rs imm => encI 0x07#6 rs 0#5 imm
  | .beql rs rt imm => encI 0x14#6 rs rt imm
  | .bnel rs rt imm => encI 0x15#6 rs rt imm
  | .blezl rs imm => encI 0x16#6 rs 0#5 imm
  | .bgtzl rs imm => encI 0x17#6 rs 0#5 imm
  | .bltz rs imm => encI 1#6 rs 0x00#5 imm
  | .bgez rs imm => encI 1#6 rs 0x01#5 imm
  | .bltzl rs imm => encI 1#6 rs 0x02#5 imm
  | .bgezl rs imm => encI 1#6 rs 0x03#5 imm
  | .bltzal rs imm => encI 1#6 rs 0x10#5 imm
  | .bgezal rs imm => encI 1#6 rs 0x11#5 imm
  | .bltzall rs imm => encI 1#6 rs 0x12#5 imm
  | .bgezall rs imm => encI 1#6 rs 0x13#5 imm
  | .lb rt offset base => encI 0x20#6 base rt offset
  | .lbu rt offset base => encI 0x24#6 base rt offset
  | .lh rt offset base => encI 0x21#6 base rt offset
  | .lhu rt offset base => encI 0x25#6 base rt offset
  | .lw rt offset base => encI 0x23#6 base rt offset
  | .lwu rt offset base => encI 0x27#6 base rt offset
  | .ld rt offset base => encI 0x37#6 base rt offset
  | .lwl rt offset base => encI 0x22#6 base rt offset
  | .lwr rt offset base => encI 0x26#6 base rt offset
  | .ldl rt offset base => encI 0x1A#6 base rt offset
  | .ldr rt offset base => encI 0x1B#6 base rt offset
  | .sb rt offset base => encI 0x28#6 base rt offset
  | .sh rt offset base => encI 0x29#6 base rt offset
  | .sw rt offset base => encI 0x2B#6 base rt offset
  | .sd rt offset base => encI 0x3F#6 base rt offset
  | .swl rt offset base => encI 0x2A#6 base rt offset
  | .swr rt offset base => encI 0x2E#6 base rt offset
  | .sdl rt offset base => encI 0x2C#6 base rt offset
  | .sdr rt offset base => encI 0x2D#6 base rt offset
  | .ll rt offset base => encI 0x30#6 base rt offset
  | .sc rt offset base => encI 0x38#6 base rt offset
  | .lld rt offset base => encI 0x34#6 base rt offset
  | .scd rt offset base => encI 0x3C#6 base rt offset
  | .sync => encR 0#5 0#5 0#5 0#5 0x0F#6
  | .mfc0 rt rd => encCop0 0x00#5 rt rd
  | .dmfc0 rt rd => encCop0 0x01#5 rt rd
  | .mtc0 rt rd => encCop0 0x04#5 rt rd
  | .dmtc0 rt rd => encCop0 0x05#5 rt rd
  | .tlbr => encCo 0x01#6
  | .tlbwi => encCo 0x02#6
  | .tlbwr => encCo 0x06#6
  | .tlbp => encCo 0x08#6
  | .eret => encCo 0x18#6
  | .syscall code => 0#6 ++ code ++ 0x0C#6
  | .break_ code => 0#6 ++ code ++ 0x0D#6
  | .tge rs rt code => 0#6 ++ rs ++ rt ++ code ++ 0x30#6
  | .tgeu rs rt code => 0#6 ++ rs ++ rt ++ code ++ 0x31#6
  | .tlt rs rt code => 0#6 ++ rs ++ rt ++ code ++ 0x32#6
  | .tltu rs rt code => 0#6 ++ rs ++ rt ++ code ++ 0x33#6
  | .teq rs rt code => 0#6 ++ rs ++ rt ++ code ++ 0x34#6
  | .tne rs rt code => 0#6 ++ rs ++ rt ++ code ++ 0x36#6
  | .tgei rs imm => encI 1#6 rs 0x08#5 imm
  | .tgeiu rs imm => encI 1#6 rs 0x09#5 imm
  | .tlti rs imm => encI 1#6 rs 0x0A#5 imm
  | .tltiu rs imm => encI 1#6 rs 0x0B#5 imm
  | .teqi rs imm => encI 1#6 rs 0x0C#5 imm
  | .tnei rs imm => encI 1#6 rs 0x0E#5 imm
  | .cache op offset base => encI 0x2F#6 base op offset
  | .cop1 payload => 0x11#6 ++ payload
  | .lwc1 rt offset base => encI 0x31#6 base rt offset
  | .ldc1 rt offset base => encI 0x35#6 base rt offset
  | .swc1 rt offset base => encI 0x39#6 base rt offset
  | .sdc1 rt offset base => encI 0x3D#6 base rt offset
  | .cop2 payload => 0x12#6 ++ payload
  | .lwc2 rt offset base => encI 0x32#6 base rt offset
  | .ldc2 rt offset base => encI 0x36#6 base rt offset
  | .swc2 rt offset base => encI 0x3A#6 base rt offset
  | .sdc2 rt offset base => encI 0x3E#6 base rt offset

end Sys2Proof
end

