-- ==== Sys2Proof/Machine/State.lean ====
section
/-! DEFINITION. The state of the CORE as plain data: everything 10_state.md gives the machine (R40 to R107), the inputs
from outside (R105, R146, R692, R810) and the model's own bookkeeping, each in its own record. -/

namespace Sys2Proof.Machine

/-- Why the machine stops with a fault: never. The one `fatal` of the spec (R160) is treated as a refusal, as R14, R777 and
92_eei_decisions.md D11 say. -/
inductive Fault where
deriving DecidableEq, Repr

/-- Why a step has no meaning: the `refuse(reason)` of the spec (R14), one constructor per reason. Every one is safe: the
model stops where the spec gives the machine no successor. -/
inductive Refusal where
  /-- An instruction without a meaning yet, by its mnemonic (raised by no arm of this model). -/
  | notModelled (mnemonic : String)
  /-- A reserved encoding under `RESERVED_POLICY = refuse` (R271). -/
  | reservedEncoding
  /-- A word that matches a row except for a must-be-zero field (R272). -/
  | mustBeZero
  /-- A word operand that is not sign-extended, of an instruction whose result MIPS III leaves undefined (R302, R401). -/
  | nonSignExtendedWord
  /-- A HI/LO writer within two instructions of an MFHI or MFLO under `HILO_HAZARD = refuse` (R768). -/
  | hiloHazard
  /-- A branch, jump or ERET in a delay slot (R446). -/
  | branchInDelaySlot
  /-- JALR with `rd = rs` (R453). -/
  | jalrSameRegister
  /-- A linking branch with `rs = 31` (R474 to R477). -/
  | linkBranchReadsR31
  /-- An access with Config.BE = 0 (R140, R577). -/
  | littleEndian
  /-- An access in user mode with Status.RE = 1 (R141). -/
  | reverseEndian
  /-- With ERL = 1 and KX = 1, an address of xkuseg above kuseg (R153). -/
  | erlXkusegUpper
  /-- More than one TLB entry matches under `TLB_MULTIMATCH = refuse` (R193). -/
  | tlbMultipleMatch
  /-- A translation through an entry with an illegal page mask (R192). -/
  | illegalPageMask
  /-- A translation to a frame beyond the 32-bit physical space (R64, R192). -/
  | pfnBeyondPhysical
  /-- TLBR or TLBWI with Index at or above 32 (R593, R594). -/
  | tlbIndexOutOfRange
  /-- TLBWR with Wired above 31 (R595). -/
  | illegalWired
  /-- A fetch whose translation an older CP0 or TLB write inside the hazard window changes (R800). -/
  | cp0Hazard
  /-- A fetch of a word that one of the two older instructions stores to (R252, R804). -/
  | storeToFetched
  /-- An uncached read of a line dirty in the data cache (R232). -/
  | uncachedReadOfDirty
  /-- An uncached write to a line the data cache may hold (R232). -/
  | uncachedWriteToCached
  /-- A fetch or fill of a line dirty in the data cache (R232). -/
  | fetchOfDirtyLine
  /-- A cached data access with `va[12] ≠ pa[12]` (R626). -/
  | virtualAlias
  /-- A watch match while EXL = 1 or ERL = 1 (R660). -/
  | watchAtExceptionLevel
  /-- A CACHE operation code without a meaning (R621, R622). -/
  | undefinedCacheOp
  /-- A CACHE operation on a secondary cache (R623). -/
  | secondaryCacheOp
  /-- D-cache Create_Dirty_Exclusive (R622). -/
  | createDirtyExclusive
  /-- D-cache Index_Store_Tag that would create a line (R622). -/
  | tagStoreCreatesLine
  /-- A D-cache operation that would discard a dirty line (R622). -/
  | discardOfDirtyLine
  /-- I-cache Hit_Write_Back over a line the data cache may hold (R621). -/
  | icacheWriteBackOverData
  /-- An instruction for the CP1 unit when none is attached (R640). -/
  | cp1NotModelled
  /-- The segment resolver runs with KSU = 0b11 and EXL = ERL = 0: `fatal(impossible mode combination)`, treated as a
  refusal (R14, R160). -/
  | impossibleMode
  /-- A soft reset or NMI was asked for (R736). -/
  | softResetOrNmi
deriving DecidableEq, Repr

/-- The kinds of access `Translate` distinguishes (R13, R170). -/
inductive AccessKind where
  | fetch
  | load
  | store
deriving DecidableEq, Repr

/-- The exceptions of R650, with what each records (R677). A TLB miss carries whether the mode's 64-bit flag was set when
the access was made, which chooses between the refill vectors (R672). -/
inductive Exc where
  | int
  | tlbModified (va : Word)
  | tlbRefill (kind : AccessKind) (va : Word) (mode64 : Bool)
  | tlbInvalid (kind : AccessKind) (va : Word)
  | addrError (kind : AccessKind) (va : Word)
  | fetchBusError
  | dataBusError
  | syscall
  | breakpoint
  | reserved
  | copUnusable (cop : BitVec 2)
  | overflow
  | trap
  | floatingPoint
  | watch
deriving DecidableEq, Repr

/-- The cacheability column of the segment tables (R153). -/
inductive SegCache where
  | uncached
  | cached
  | byK0
  | byTlb
deriving DecidableEq, Repr

/-- The mode tables of R153: privilege, 32- or 64-bit addressing, and for kernel mode the ERL variants. -/
inductive SegMode where
  | u32
  | u64
  | s32
  | s64
  | k32
  | k64
  | k32Erl
  | k64Erl
deriving DecidableEq, Repr

/-- A segment descriptor (R150). -/
structure Segment where
  start  : Word
  length : Word
  offset : Word
  modes  : List SegMode
  mapped : Bool
  cached : SegCache
deriving DecidableEq, Repr

/-- The sentinel "default" segment (R158). -/
def Segment.sentinel : Segment where
  start := 0
  length := 0
  offset := 0
  modes := []
  mapped := false
  cached := .uncached

/-- One page of a TLB entry (R100). -/
structure TlbPage where
  pfn : BitVec 24
  c   : BitVec 3
  d   : Bool
  v   : Bool
deriving DecidableEq, Repr

/-- A TLB entry (R100). -/
structure TlbEntry where
  mask : BitVec 12
  vpn2 : BitVec 27
  r    : BitVec 2
  asid : BitVec 8
  g    : Bool
  even : TlbPage
  odd  : TlbPage
deriving DecidableEq, Repr

/-- An instruction-cache line (R101); `data` is its 32 bytes, the byte at the lowest address most significant. -/
structure IcLine where
  data  : BitVec 256
  ptag  : BitVec 20
  valid : Bool
deriving DecidableEq, Repr

/-- The CP0 registers (R60 to R92), each under its own name; PRId is a parameter (R76) and CacheErr reads 0 (R85). -/
structure Cp0 where
  index       : Word32
  random      : Word32
  entryLo0    : Word
  entryLo1    : Word
  context     : Word
  pageMask    : Word32
  wired       : Word32
  badVAddr    : Word
  count       : Word32
  entryHi     : Word
  compare     : Word32
  status      : Word32
  cause       : Word32
  epc         : Word
  config      : Word32
  llAddr      : Word32
  watchLo     : Word32
  watchHi     : Word32
  xcontext    : Word
  parityError : Word32
  tagLo       : Word32
  tagHi       : Word32
  errorEpc    : Word
deriving DecidableEq, Repr

/-- What a translation reads besides the address (R170, R190, R193): the hazard rule R800 compares two of these. -/
structure TransCtx where
  status     : Word32
  config     : Word32
  entryHi    : Word
  tlb        : Vector TlbEntry 32
  recency    : List Nat
  multimatch : MultiMatch
deriving DecidableEq, Repr

/-- A write of R800 whose window is still open: how many more instructions it covers, and the translation state before
and after it. -/
structure Cp0Hazard where
  left   : Nat
  before : TransCtx
  after  : TransCtx
deriving DecidableEq, Repr

/-- A store whose bytes the next `left` instructions may not be fetched from (R252). -/
structure RecentStore where
  left : Nat
  addr : Nat
  size : Nat
deriving DecidableEq, Repr

/-- The model's own record of what the hazard rules look back at (R252, R627, R768, R800). `hiloAge` is the distance of
the next instruction from the last completed MFHI or MFLO, up to 3 (log entry 8). `icBefore` is the line a CACHE operation
has just changed, by its index, as the instruction already fetched behind the CACHE saw it (R627). -/
structure Hazards where
  cp0      : List Cp0Hazard
  stores   : List RecentStore
  hiloAge  : Nat
  icBefore : Option (BitVec 9 × IcLine)
deriving DecidableEq, Repr

/-- The delay slot of a branch in flight at instruction level (R440, R443): where execution goes after the slot, and
whether the slot is killed. -/
structure DelaySlot where
  next   : Word
  killed : Bool
deriving DecidableEq, Repr

/-- The loads and stores that make a bus request (R501), by name. -/
inductive MemOp where
  | lb | lbu | lh | lhu | lw | lwu | ld | lwl | lwr | ldl | ldr | ll | lld
  | sb | sh | sw | sd | swl | swr | sdl | sdr | sc | scd
  | lwc1 | ldc1 | swc1 | sdc1
deriving DecidableEq, Repr

/-- A pending bus request (R146): the operation, its virtual and physical address, the cacheability of the translation,
the first byte and the number of bytes it touches (R147, R520), a store's data in the low `8 * size` bits, and the old
value of the destination that a partial-word load merges into. -/
structure MemReq where
  op     : MemOp
  va     : Word
  pa     : PAddr
  cached : Bool
  addr   : PAddr
  size   : Nat
  data   : Word
  old    : Word
deriving DecidableEq, Repr

/-- The fault identifiers a latch carries (R652, R751). -/
inductive FaultId where
  | none | rst | iade | itlb | icb | unc | ibe | ldi | rsvd | cpu | sysc | brpt | trap | ovfl
  | dade | dtlb | wat | intr | dcb | dbe | fpe | killed
deriving DecidableEq, Repr

/-- `cause_data` (R103, R751): the delay-slot flag and what the fault records. -/
structure CauseData where
  bd       : Bool
  cop      : BitVec 2
  va       : Word
  kind     : AccessKind
  refill   : Bool
  modified : Bool
  mode64   : Bool
deriving DecidableEq, Repr

/-- No cause. -/
def CauseData.empty : CauseData where
  bd := false
  cop := 0
  va := 0
  kind := .fetch
  refill := false
  modified := false
  mode64 := false

/-- The common header of the latches (R103); `live` tells an instruction slot from a bubble (R751). -/
structure Header where
  pc      : Word
  live    : Bool
  faultId : FaultId
  cause   : CauseData
deriving DecidableEq, Repr

/-- A bubble's header (R751), its pc and cause data 0, which R103 leaves open: DESIGN CHOICE (log entry 29). -/
def Header.bubble : Header where
  pc := 0
  live := false
  faultId := .none
  cause := .empty

/-- The IC→RF latch (R103, R751). -/
structure IcRf where
  hd        : Header
  pa        : PAddr
  cached    : Bool
  wordReady : Bool
  word      : Word32
  refilled  : Bool
deriving DecidableEq, Repr

/-- The RF→EX latch (R103). -/
structure RfEx where
  hd     : Header
  iw     : Word32
  iwMask : Word32
  desc   : Decoded
deriving DecidableEq, Repr

/-- What EX changed besides its immediate writes, as it was before: the HI/LO window (R768) and the sets DDirty and DMaybe
(R622). DC gives it back when it finds an exception of the instruction, which then has no effect (R670, R691). -/
structure BeforeEx where
  hiloAge : Nat
  dDirty  : List Nat
  dMaybe  : List Nat
deriving DecidableEq, Repr

/-- The EX→DC latch (R103, R751). -/
structure ExDc where
  hd       : Header
  before   : BeforeEx
  request  : Option MemReq
  result   : Word
  dest     : RegNo
  eret     : Bool
  immWrite : Bool
deriving DecidableEq, Repr

/-- The DC→WB latch (R103, R751); `link` is the LL marker with the physical address (R769), `load` marks a load (R767). -/
structure DcWb where
  hd       : Header
  result   : Word
  dest     : RegNo
  link     : Option PAddr
  load     : Bool
  eret     : Bool
  immWrite : Bool
deriving DecidableEq, Repr

/-- The latches and the control state of the pipeline (R103, R104). The last three fields are what EX notes for RF
(R763, R764), kept because RF can be resumed alone after an interlock (R774). -/
structure Pipe where
  icrf          : IcRf
  rfex          : RfEx
  exdc          : ExDc
  dcwb          : DcWb
  faultPresent  : Bool
  cyclesToStall : Nat
  skipStages    : Nat
  excHistory    : Nat
  fetchHold     : Bool
  squash        : Bool
  holdFront     : Bool
  exBranch      : Bool
  exKill        : Bool
  exEret        : Bool
deriving DecidableEq, Repr

/-- The type of a bus request (R146). -/
inductive ReqType where
  | read
  | write
deriving DecidableEq, Repr

/-- How the bus answers where it is not plain memory (R146, R241, R244): with `error`, as a ROM that drops writes, as a
device, which takes writes and answers a read with a value of its own, or with `busy(n)` (log entries 5 and 15). -/
inductive BusKind where
  | error
  | rom
  | device
  | busy (n : Nat)
deriving DecidableEq, Repr

/-- One rule of `BUS`, the function from a request to its answer (R9, R146, R244): to the requests of these types and widths
(none listed: any) that meet the addresses, from the time `start` on and before `stop`, the bus answers as the kind says. A
device's data are `answer` (none given: free values). -/
structure BusRange where
  base   : Nat
  size   : Nat
  kind   : BusKind
  types  : List ReqType := [.read, .write]
  sizes  : List Nat := []
  start  : Nat := 0
  stop   : Option Nat := none
  answer : Option Nat := none
deriving DecidableEq, Repr

/-- What reaches the CORE from outside, each a queue or a list the model reads (R105, R146, R244, R692, R810): the interrupt
lines Int[4:0] of the coming steps or cycles (none listed: a draw), the answers to the coming bus requests, `busy(n)` or at
once, the bus's time, counted in steps or cycles (log entry 5), its rules for what is no plain memory, and the external invalidate-hit
requests made before each of the coming steps or cycles (none listed: none). -/
structure Inputs where
  extInt  : List (BitVec 5)
  busWait : List (Option Nat)
  busTime : Nat
  busMap  : List BusRange
  inval   : List (List (Word × PAddr))
deriving DecidableEq, Repr

/-- The state of the machine. `pc` is the fetch PC (R47): between two instruction-level steps, the address of the next
instruction. `mem` is the memory behind the bus as a canonical list (strictly rising addresses, no zero byte listed);
`dDirty` and `dMaybe` are DDirty and DMaybe as rising lists of line addresses (R106). `recency` (write order of the TLB
entries, latest first), `hz` and `draws` (how many free values were taken) are the model's own. -/
structure State where
  gpr        : Vector Word 32
  hi         : Word
  lo         : Word
  pc         : Word
  delay      : Option DelaySlot
  llbit      : Bool
  cp0        : Cp0
  tlb        : Vector TlbEntry 32
  icache     : Vector IcLine 512
  activeSeg  : Segment
  pipe       : Pipe
  coldReset  : Bool
  dDirty     : List Nat
  dMaybe     : List Nat
  countPhase : Bool
  mem        : List Host.Cell
  cp1        : Cp1
  params     : Params
  inputs     : Inputs
  recency    : List Nat
  hz         : Hazards
  draws      : Nat
deriving DecidableEq, Repr

/-- Every latch a bubble, the control state at rest (R103, R104). What R103 does not give of a bubble is 0: DESIGN CHOICE (log
entry 29). -/
def Pipe.bubbles : Pipe where
  icrf := { hd := .bubble, pa := 0, cached := false, wordReady := false, word := 0, refilled := false }
  rfex := { hd := .bubble, iw := 0, iwMask := 0, desc := .instr (.sll 0 0 0) }
  exdc := { hd := .bubble, before := { hiloAge := 0, dDirty := [], dMaybe := [] }, request := none, result := 0, dest := 0,
            eret := false, immWrite := false }
  dcwb := { hd := .bubble, result := 0, dest := 0, link := none, load := false, eret := false, immWrite := false }
  faultPresent := false
  cyclesToStall := 0
  skipStages := 0
  excHistory := 0
  fetchHold := false
  squash := false
  holdFront := false
  exBranch := false
  exKill := false
  exEret := false

/-- The CP0 registers at power-on: every register the spec states no value for is 0, but for the hard-wired bits of Config
and its EC field, CONFIG_EC (R77). DESIGN CHOICE (log entries 1 and 4). -/
def Cp0.powerOn : Cp0 where
  index := 0
  random := 0
  entryLo0 := 0
  entryLo1 := 0
  context := 0
  pageMask := 0
  wired := 0
  badVAddr := 0
  count := 0
  entryHi := 0
  compare := 0
  status := 0
  cause := 0
  epc := 0
  config := 0x70066460#32
  llAddr := 0
  watchLo := 0
  watchHi := 0
  xcontext := 0
  parityError := 0
  tagLo := 0
  tagHi := 0
  errorEpc := 0

/-- The TLB at power-on: invalid entries with pairwise different VPN2, as R745 step 5 asks of software, on the pages from
0xFFFFFFFF80000000 up, which are unmapped in every mode, so that no translation matches one. DESIGN CHOICE (log entry 2). -/
def tlbPowerOn : Vector TlbEntry 32 :=
  Vector.ofFn fun i =>
    { mask := 0, vpn2 := BitVec.ofNat 27 (0x7FC0000 + i.val), r := 3, asid := 0, g := false,
      even := { pfn := 0, c := 0, d := false, v := false }, odd := { pfn := 0, c := 0, d := false, v := false } }

/-- The machine as `init(bus)` leaves it (R730): the cold-reset signal asserted, nothing programmed yet. What is U in R731
is 0 (log entries 1 to 5). -/
def State.powerOn : State where
  gpr := Vector.replicate 32 0
  hi := 0
  lo := 0
  pc := 0
  delay := none
  llbit := false
  cp0 := .powerOn
  tlb := tlbPowerOn
  icache := Vector.replicate 512 { data := 0, ptag := 0, valid := false }
  activeSeg := .sentinel
  pipe := .bubbles
  coldReset := true
  dDirty := []
  dMaybe := []
  countPhase := false
  mem := []
  cp1 := { fpr := Vector.replicate 32 0, fcr := Vector.replicate 32 0, cond := false }
  params := .specDefault
  inputs := { extInt := [], busWait := [], busTime := 0, busMap := [], inval := [] }
  recency := []
  hz := { cp0 := [], stores := [], hiloAge := 3, icBefore := none }
  draws := 0

/-- The machine right after the reset handler's cycle (R730, R731): the state of `State.powerOn` with Status, Config,
Random, Wired, LLbit, the latches, the bookkeeping and the fetch PC as the handler programs them. -/
def State.reset : State :=
  { State.powerOn with
    pc := 0xFFFFFFFFBFC00000#64
    coldReset := false
    cp0 := { Cp0.powerOn with status := 0x00400004#32, config := 0x7006E460#32, random := 31#32 } }

end Sys2Proof.Machine
end

