-- ==== Sys2Proof/Machine/Flags.lean ====
section
/-! DEFINITION. The conditions instructions compute or read: the fields of Status, Config and Cause with the mode predicates
of R16, the signed-fit (overflow) and sign-extension tests of R302 and R304, and the comparisons of branches and traps.
The CORE has no flags register (R51): a condition decides a trap or a branch or becomes a register value. -/

namespace Sys2Proof.Machine

/-- Status.IE (R72). -/
def stIE (st : Word32) : Bool := st.getLsbD 0
/-- Status.EXL (R72). -/
def stEXL (st : Word32) : Bool := st.getLsbD 1
/-- Status.ERL (R72). -/
def stERL (st : Word32) : Bool := st.getLsbD 2
/-- Status.KSU (R72). -/
def stKSU (st : Word32) : BitVec 2 := st.extractLsb' 3 2
/-- Status.UX (R72). -/
def stUX (st : Word32) : Bool := st.getLsbD 5
/-- Status.SX (R72). -/
def stSX (st : Word32) : Bool := st.getLsbD 6
/-- Status.KX (R72). -/
def stKX (st : Word32) : Bool := st.getLsbD 7
/-- Status.IM7..IM0 (R72). -/
def stIM (st : Word32) : BitVec 8 := st.extractLsb' 8 8
/-- Status.BEV (R72). -/
def stBEV (st : Word32) : Bool := st.getLsbD 22
/-- Status.RE (R72). -/
def stRE (st : Word32) : Bool := st.getLsbD 25
/-- Status.FR (R72). -/
def stFR (st : Word32) : Bool := st.getLsbD 26
/-- Status.CU0 (R72). -/
def stCU0 (st : Word32) : Bool := st.getLsbD 28
/-- Status.CU1 (R72). -/
def stCU1 (st : Word32) : Bool := st.getLsbD 29
/-- Status.CU2 (R72). -/
def stCU2 (st : Word32) : Bool := st.getLsbD 30

/-- Config.BE (R77). -/
def cfgBE (config : Word32) : Bool := config.getLsbD 15
/-- Config.K0 (R77). -/
def cfgK0 (config : Word32) : BitVec 3 := config.extractLsb' 0 3
/-- Cause.IP7..IP0 (R74). -/
def causeIP (cause : Word32) : BitVec 8 := cause.extractLsb' 8 8

/-- KernelMode (R16). -/
def kernelMode (st : Word32) : Bool := stEXL st || stERL st || stKSU st == 0#2
/-- SupervisorMode (R16). -/
def supervisorMode (st : Word32) : Bool := !kernelMode st && stKSU st == 1#2
/-- UserMode (R16). -/
def userMode (st : Word32) : Bool := !kernelMode st && stKSU st == 2#2
/-- Mode64 (R16). -/
def mode64 (st : Word32) : Bool :=
  (kernelMode st && stKX st) || (supervisorMode st && stSX st) || (userMode st && stUX st)
/-- Ops64Allowed (R16). -/
def ops64Allowed (st : Word32) : Bool :=
  kernelMode st || (supervisorMode st && stSX st) || (userMode st && stUX st)
/-- CP0Usable (R16). -/
def cp0Usable (st : Word32) : Bool := kernelMode st || stCU0 st

/-- The mode table the resolver uses (R153, R155), none for the impossible combination (R160). -/
def segMode (st : Word32) : Option SegMode :=
  if kernelMode st then
    some (if stKX st then (if stERL st then .k64Erl else .k64) else (if stERL st then .k32Erl else .k32))
  else if supervisorMode st then some (if stSX st then .s64 else .s32)
  else if userMode st then some (if stUX st then .u64 else .u32)
  else none

/-- Whether an enabled interrupt is pending (R690). The enables are tested first. -/
def intPending (c : Cp0) : Bool :=
  stIE c.status && !stEXL c.status && !stERL c.status && (causeIP c.cause &&& stIM c.status) != 0#8

/-- `SX32(v)` (R302). -/
def sx32 (v : Word) : Bool := v == sext64 (lo32 v)

/-- Whether an integer result fits a signed 32-bit word (R304). -/
def fits32 (t : Int) : Bool := decide (-2147483648 ≤ t ∧ t ≤ 2147483647)

/-- Whether an integer result fits a signed 64-bit doubleword (R304). -/
def fits64 (t : Int) : Bool := decide (-9223372036854775808 ≤ t ∧ t ≤ 9223372036854775807)

/-- A condition as the value SLT and its kin write (R330). -/
def boolWord (b : Bool) : Word := if b then 1#64 else 0#64

/-- `signed(v) < 0` (R470). -/
def isNeg (v : Word) : Bool := v.slt 0#64
/-- `signed(v) ≤ 0` (R462). -/
def isLez (v : Word) : Bool := v.sle 0#64

/-- A cache algorithm code is cached unless it is 2 (R79). -/
def algCached (c : BitVec 3) : Bool := c != 2#3

/-- A legal PageMask.MASK (R67). -/
def legalMask (m : BitVec 12) : Bool :=
  m == 0x000#12 || m == 0x003#12 || m == 0x00F#12 || m == 0x03F#12 || m == 0x0FF#12 || m == 0x3FF#12 || m == 0xFFF#12

end Sys2Proof.Machine
end

