-- ==== Sys2Proof/Machine/Operands.lean ====
section
/-! DEFINITION. The operand forms: general registers with the hard-wired register 0 (R40), the immediates and targets of
R263, the base + offset address of R500, the byte sets of the loads and stores (R147, R520) with the result of a load and
the data of a store, and the byte lanes of a store on a 32-bit bus word (R149). -/

namespace Sys2Proof.Machine

/-- `x[r]` (R12, R40): register 0 reads 0. -/
def State.readReg (s : State) (r : RegNo) : Word :=
  if r = 0#5 then 0#64 else s.gpr[r.toNat]'(by have := r.isLt; omega)

/-- `x[r] <- v` (R12, R40): a write to register 0 is discarded. -/
def State.writeReg (s : State) (r : RegNo) (v : Word) : State :=
  if r = 0#5 then s else { s with gpr := s.gpr.set r.toNat v (by have := r.isLt; omega) }

/-- The effective address `x[base] + sext_64(offset)` (R500). -/
def effAddr (s : State) (base : RegNo) (offset : BitVec 16) : Word := s.readReg base + sextImm offset

/-- The target of a PC-relative branch at `pc` (R441). -/
def branchTarget (pc : Word) (imm : BitVec 16) : Word := pc + 4#64 + (sextImm imm <<< 2)

/-- The target of J and JAL at `pc`: in the 256 MB region of the delay slot (R441). -/
def jumpTarget (pc : Word) (target : BitVec 26) : Word := (pc + 4#64).extractLsb' 28 36 ++ target ++ 0#2

/-- The value LUI loads (R347). -/
def luiValue (imm : BitVec 16) : Word := sext64 (imm ++ 0#16)

/-- Whether an access stores (R501). -/
def MemOp.isStore : MemOp → Bool
  | .sb | .sh | .sw | .sd | .swl | .swr | .sdl | .sdr | .sc | .scd | .swc1 | .sdc1 => true
  | .lb | .lbu | .lh | .lhu | .lw | .lwu | .ld | .lwl | .lwr | .ldl | .ldr | .ll | .lld | .lwc1 | .ldc1 => false

/-- The access kind of a load or store (R502). -/
def MemOp.kind (op : MemOp) : AccessKind := if op.isStore then .store else .load

/-- The type of the access's bus request (R146). -/
def MemOp.reqType (op : MemOp) : ReqType := if op.isStore then .write else .read

/-- The size an access is aligned to, 1 where the form has no alignment requirement (R237). -/
def MemOp.alignment : MemOp → Nat
  | .lb | .lbu | .sb | .lwl | .lwr | .ldl | .ldr | .swl | .swr | .sdl | .sdr => 1
  | .lh | .lhu | .sh => 2
  | .lw | .lwu | .sw | .ll | .sc | .lwc1 | .swc1 => 4
  | .ld | .sd | .lld | .scd | .ldc1 | .sdc1 => 8

/-- The 64-bit loads and stores (R275). -/
def MemOp.ops64 : MemOp → Bool
  | .lwu | .ld | .ldl | .ldr | .lld | .sd | .sdl | .sdr | .scd => true
  | .lb | .lbu | .lh | .lhu | .lw | .lwl | .lwr | .ll | .sb | .sh | .sw | .swl | .swr | .sc | .lwc1 | .ldc1 | .swc1
  | .sdc1 => false

/-- SC and SCD, which test LLbit in DC (R541, R544, R769). -/
def MemOp.conditional : MemOp → Bool
  | .sc | .scd => true
  | .lb | .lbu | .lh | .lhu | .lw | .lwu | .ld | .lwl | .lwr | .ldl | .ldr | .ll | .lld | .sb | .sh | .sw | .sd | .swl
  | .swr | .sdl | .sdr | .lwc1 | .ldc1 | .swc1 | .sdc1 => false

/-- LL and LLD, which carry the LL marker (R540, R543, R769). -/
def MemOp.linked : MemOp → Bool
  | .ll | .lld => true
  | .lb | .lbu | .lh | .lhu | .lw | .lwu | .ld | .lwl | .lwr | .ldl | .ldr | .sb | .sh | .sw | .sd | .swl | .swr | .sdl
  | .sdr | .sc | .scd | .lwc1 | .ldc1 | .swc1 | .sdc1 => false

/-- The CP1 loads and stores, which no watch checks (R660). -/
def MemOp.isCp1 : MemOp → Bool
  | .lwc1 | .ldc1 | .swc1 | .sdc1 => true
  | .lb | .lbu | .lh | .lhu | .lw | .lwu | .ld | .lwl | .lwr | .ldl | .ldr | .ll | .lld | .sb | .sh | .sw | .sd | .swl
  | .swr | .sdl | .sdr | .sc | .scd => false

/-- Whether the load writes a GPR, so that a use of it slips (R767). -/
def MemOp.isGprLoad (op : MemOp) : Bool := !op.isStore && !op.isCp1

/-- The first byte an access touches (R147, R520), which is the address of its bus request: for a partial-word access DESIGN CHOICE
(log entry 5). -/
def MemOp.firstByte (op : MemOp) (pa : PAddr) : PAddr :=
  match op with
  | .lwr | .swr => pa &&& ~~~3#32
  | .ldr | .sdr => pa &&& ~~~7#32
  | _ => pa

/-- How many bytes an access touches (R147, R520), which is the size of its bus request: for a partial-word access, of up to 8
bytes and 3, 5, 6 or 7 too, DESIGN CHOICE (log entry 5). -/
def MemOp.byteCount (op : MemOp) (pa : PAddr) : Nat :=
  match op with
  | .lwl | .swl => 4 - pa.toNat % 4
  | .lwr | .swr => pa.toNat % 4 + 1
  | .ldl | .sdl => 8 - pa.toNat % 8
  | .ldr | .sdr => pa.toNat % 8 + 1
  | _ => op.alignment

/-- The register value a store writes, its bytes to be stored in the low `8 * byteCount` bits (R530 to R537). -/
def MemOp.storeValue (op : MemOp) (pa : PAddr) (v : Word) : Word :=
  match op with
  | .swl => (v.setWidth 32).setWidth 64 >>> (8 * (pa.toNat % 4))
  | .sdl => v >>> (8 * (pa.toNat % 8))
  | _ => v

/-- The mask of the low `n` bytes of a word of 32 bits. -/
def lowBytes32 (n : Nat) : Word32 := BitVec.ofNat 32 (2 ^ (8 * n) - 1)

/-- The mask of the low `n` bytes of a doubleword. -/
def lowBytes64 (n : Nat) : Word := BitVec.ofNat 64 (2 ^ (8 * n) - 1)

/-- The result of a load (R510 to R524, R540, R543) from the bytes it read, assembled big-endian, and the old value of
its destination. For the stores it is not used; SC and SCD form their result from LLbit (R541). -/
def MemOp.loadValue (op : MemOp) (pa : PAddr) (m : Nat) (old : Word) : Word :=
  match op with
  | .lb => (BitVec.ofNat 8 m).signExtend 64
  | .lbu => (BitVec.ofNat 8 m).setWidth 64
  | .lh => (BitVec.ofNat 16 m).signExtend 64
  | .lhu => (BitVec.ofNat 16 m).setWidth 64
  | .lw | .ll => sext64 (BitVec.ofNat 32 m)
  | .lwu => (BitVec.ofNat 32 m).setWidth 64
  | .ld | .lld | .ldc1 => BitVec.ofNat 64 m
  | .lwl =>
    let k := pa.toNat % 4
    sext64 ((BitVec.ofNat 32 m <<< (8 * k)) ||| (lo32 old &&& lowBytes32 k))
  | .lwr =>
    let n := pa.toNat % 4 + 1
    sext64 ((lo32 old &&& ~~~lowBytes32 n) ||| BitVec.ofNat 32 m)
  | .ldl =>
    let k := pa.toNat % 8
    (BitVec.ofNat 64 m <<< (8 * k)) ||| (old &&& lowBytes64 k)
  | .ldr =>
    let n := pa.toNat % 8 + 1
    (old &&& ~~~lowBytes64 n) ||| BitVec.ofNat 64 m
  | .lwc1 => (BitVec.ofNat 32 m).setWidth 64
  | .sb | .sh | .sw | .sd | .swl | .swr | .sdl | .sdr | .sc | .scd | .swc1 | .sdc1 => 0#64

/-- The left shift of a store's data on the aligned 32-bit bus word, for a size of 1, 2 or 4 (R149). -/
def laneShift (size addr : Nat) : Nat := (4 - size - addr % 4) * 8

/-- The write-data qualifying mask on the bus word (R149). -/
def laneMask (size addr : Nat) : Word32 := BitVec.ofNat 32 (2 ^ (8 * size) - 1) <<< laneShift size addr

/-- The bus word after a store of `size` bytes at `addr`, from the bus word before it (R149). -/
def laneStore (size addr : Nat) (data before : Word32) : Word32 :=
  (before &&& ~~~laneMask size addr) ||| ((data <<< laneShift size addr) &&& laneMask size addr)

/-- The request size the source's rule reads from the opcode, `((iw >> 26) & 3) + 1` (R148). -/
def sizeFromOpcode (op : BitVec 6) : Nat := op.toNat % 4 + 1

end Sys2Proof.Machine
end

