-- ==== Sys2Proof/Machine/Ops.lean ====
section
/-! DEFINITION. The named operations every meaning is written over: memory, free values, segments, the TLB, translation,
the instruction cache, the data-cache bookkeeping, the CP0 registers, a data request in DC, taking an exception and
returning from one, writeback and the advance of the pc, and the cold-reset handler. -/

namespace Sys2Proof.Machine

/-! ## Memory (R140, R147, R244) -/

/-- What a physical address nothing has written reads as. DESIGN CHOICE (log entry 5). -/
def memDefault : Byte := 0#8

/-- The byte at a physical address. -/
def memRead : List Host.Cell → Nat → Byte
  | [], _ => memDefault
  | (a, b) :: rest, x => if a = x then b else memRead rest x

/-- Write one byte, keeping the canonical form: addresses strictly rising, no cell that holds what an unlisted address
reads as. -/
def memWrite : List Host.Cell → Nat → Byte → List Host.Cell
  | [], x, v => if v = memDefault then [] else [(x, v)]
  | (a, b) :: rest, x, v =>
    if a < x then (a, b) :: memWrite rest x v
    else if a = x then (if v = memDefault then rest else (x, v) :: rest)
    else if v = memDefault then (a, b) :: rest
    else (x, v) :: (a, b) :: rest

/-- The canonical form from an address on. -/
def memWfFrom : Nat → List Host.Cell → Bool
  | _, [] => true
  | lo, (a, b) :: rest => decide (lo ≤ a) && b != memDefault && memWfFrom (a + 1) rest

/-- The canonical form of a memory: strictly rising addresses inside the 32-bit physical space (R8), no default byte
listed. -/
def Memory.wf (m : List Host.Cell) : Bool := memWfFrom 0 m && m.all (fun c => decide (c.1 < 2 ^ 32))

/-- `MemRead(a, n)` as a number, the byte at `a` most significant (R13, R140). -/
def readBE (m : List Host.Cell) (a : Nat) : Nat → Nat
  | 0 => 0
  | n + 1 => readBE m a n * 256 + (memRead m (a + n)).toNat

/-- `MemWrite(a, n, v)`, the low `8 * n` bits of `v`, most significant byte to `a` (R13, R140). -/
def writeBE (m : List Host.Cell) (a : Nat) : Nat → Nat → List Host.Cell
  | 0, _ => m
  | n + 1, v => memWrite (writeBE m a n (v / 256)) (a + n) (BitVec.ofNat 8 (v % 256))

/-! ## Sets of line addresses (R106) -/

/-- Add a line to a rising list. -/
def lineAdd : List Nat → Nat → List Nat
  | [], x => [x]
  | a :: rest, x => if a < x then a :: lineAdd rest x else if a = x then a :: rest else x :: a :: rest

/-- Remove a line. -/
def lineRemove (l : List Nat) (x : Nat) : List Nat := l.filter (fun a => a != x)

/-- A list of lines in rising order, each 16-byte aligned (R106). -/
def linesWfFrom : Nat → List Nat → Bool
  | _, [] => true
  | lo, a :: rest => decide (lo ≤ a) && decide (a % 16 = 0) && linesWfFrom (a + 1) rest

/-- `line16(pa)` (R232). -/
def line16 (pa : PAddr) : Nat := pa.toNat / 16 * 16

/-! ## Free values (R14) -/

/-- The next free value. -/
def State.drawn (s : State) : Word := Config.draw s.draws

/-- The free value `n` places on. -/
def State.drawnAt (s : State) (n : Nat) : Word := Config.draw (s.draws + n)

/-- The state after `n` draws. -/
def State.drew (s : State) (n : Nat) : State := { s with draws := s.draws + n }

/-! ## The bus (R146, R241, R244) -/

/-- Whether a rule of the bus answers a request of `n` bytes at `a` at a time. -/
def BusRange.answers (r : BusRange) (now : Nat) (ty : ReqType) (a n : Nat) : Bool :=
  r.types.contains ty && (r.sizes.isEmpty || r.sizes.contains n) && decide (r.start ≤ now) &&
    r.stop.all (fun e => decide (now < e)) && decide (r.base < a + n) && decide (a < r.base + r.size)

/-- The first rule of a kind that answers a request now. -/
def busRule (inp : Inputs) (ty : ReqType) (kind : BusKind) (a n : Nat) : Option BusRange :=
  inp.busMap.find? (fun r => r.kind == kind && r.answers inp.busTime ty a n)

/-- Whether a rule of this kind answers a request of `n` bytes at `a`. -/
def busMeets (inp : Inputs) (ty : ReqType) (kind : BusKind) (a n : Nat) : Bool := (busRule inp ty kind a n).isSome

/-- Whether the bus answers `error` to a request of `n` bytes at `a` (R146). -/
def busErrorAt (inp : Inputs) (ty : ReqType) (a n : Nat) : Bool := busMeets inp ty .error a n

/-- Whether a device answers a read of `n` bytes at `a` (R241). -/
def busDeviceAt (inp : Inputs) (a n : Nat) : Bool := busMeets inp .read .device a n

/-- Whether a write of `n` bytes at `a` changes no memory: a ROM drops it, a device takes it (R244). -/
def busTakesWrite (inp : Inputs) (a n : Nat) : Bool := busMeets inp .write .rom a n || busMeets inp .write .device a n

/-- The `n` of a rule that answers `busy(n)`. -/
def BusRange.busyCycles (r : BusRange) : Option Nat :=
  match r.kind with
  | .busy n => some n
  | .error | .rom | .device => none

/-- The `n` with which the bus's rules answer `busy(n)` to a request, none when they do not (R146): the first busy one's, `error`
coming before it (log entry 5). -/
def busBusyAt (inp : Inputs) (ty : ReqType) (a n : Nat) : Option Nat :=
  if busErrorAt inp ty a n then none
  else inp.busMap.findSome? (fun r => if r.answers inp.busTime ty a n then r.busyCycles else none)

/-- A free value of `n` bytes, at most 32: what a device outside the CORE answers, unless its rule gives the data (R241). -/
def State.deviceData (s : State) (n : Nat) : Nat :=
  (s.drawn ++ s.drawnAt 1 ++ s.drawnAt 2 ++ s.drawnAt 3).toNat % 256 ^ n

/-- The data of a read the bus answers, `MemRead(a, n)` in plain memory and in a ROM (R13, R146, R147). -/
def State.busRead (s : State) (a n : Nat) : Nat :=
  match busRule s.inputs .read .device a n with
  | some r => r.answer.elim (s.deviceData n) (fun v => v % 256 ^ n)
  | none => readBE s.mem a n

/-- The state after a read: a device's answer takes four free values. -/
def State.afterRead (s : State) (a n : Nat) : State := s.drew (if busDeviceAt s.inputs a n then 4 else 0)

/-- Memory after a write the bus answers, `MemWrite(a, n, v)` in plain memory (R13, R146, R147). -/
def State.busWrite (s : State) (a n v : Nat) : List Host.Cell :=
  if busTakesWrite s.inputs a n then s.mem else writeBE s.mem a n v

/-! ## Segments (R150 to R160) -/

/-- `[start, start + length)` contains the address (R150). -/
def Segment.contains (g : Segment) (va : Word) : Bool := (va - g.start).ult g.length

/-- The xkphys window `n` (R153). -/
def xkphysWindow (n : Nat) : Segment where
  start := 0x8000000000000000#64 + BitVec.ofNat 64 (n * 0x0800000000000000)
  length := 0x0000000100000000#64
  offset := 0x8000000000000000#64 + BitVec.ofNat 64 (n * 0x0800000000000000)
  modes := [.k64, .k64Erl]
  mapped := false
  cached := if n = 2 then .uncached else .cached

/-- The segments of R153, one row each. -/
def segments : List Segment :=
  [ { start := 0x0000000000000000#64, length := 0x0000000080000000#64, offset := 0#64,
      modes := [.u32, .s32, .k32], mapped := true, cached := .byTlb },
    { start := 0x0000000000000000#64, length := 0x0000000080000000#64, offset := 0#64,
      modes := [.k32Erl, .k64Erl], mapped := false, cached := .uncached },
    { start := 0x0000000000000000#64, length := 0x0000010000000000#64, offset := 0#64,
      modes := [.u64, .s64, .k64], mapped := true, cached := .byTlb },
    { start := 0x4000000000000000#64, length := 0x0000010000000000#64, offset := 0#64,
      modes := [.s64, .k64, .k64Erl], mapped := true, cached := .byTlb } ] ++
  [ xkphysWindow 0, xkphysWindow 1, xkphysWindow 2, xkphysWindow 3,
    xkphysWindow 4, xkphysWindow 5, xkphysWindow 6, xkphysWindow 7 ] ++
  [ { start := 0xC000000000000000#64, length := 0x000000FF80000000#64, offset := 0#64,
      modes := [.k64, .k64Erl], mapped := true, cached := .byTlb },
    { start := 0xFFFFFFFF80000000#64, length := 0x0000000020000000#64, offset := 0xFFFFFFFF80000000#64,
      modes := [.k32, .k64, .k32Erl, .k64Erl], mapped := false, cached := .byK0 },
    { start := 0xFFFFFFFFA0000000#64, length := 0x0000000020000000#64, offset := 0xFFFFFFFFA0000000#64,
      modes := [.k32, .k64, .k32Erl, .k64Erl], mapped := false, cached := .uncached },
    { start := 0xFFFFFFFFC0000000#64, length := 0x0000000020000000#64, offset := 0#64,
      modes := [.s32, .s64, .k32, .k64, .k32Erl, .k64Erl], mapped := true, cached := .byTlb },
    { start := 0xFFFFFFFFE0000000#64, length := 0x0000000020000000#64, offset := 0#64,
      modes := [.k32, .k64, .k32Erl, .k64Erl], mapped := true, cached := .byTlb } ]

/-- `resolve` in one mode table (R151). -/
def resolveIn (m : SegMode) (va : Word) : Option Segment :=
  segments.find? (fun g => g.modes.contains m && g.contains va)

/-- The addresses R153 refuses in 64-bit kernel mode with ERL = 1. -/
def erlUpper (m : SegMode) (va : Word) : Bool :=
  m == .k64Erl && !va.ult 0x0000000080000000#64 && va.ult 0x0000010000000000#64

/-! ## The TLB (R190 to R198) -/

/-- The address-independent part of a match: page numbers equal outside the entry's mask, equal region, global or equal
ASID (R190, R197). -/
def TlbEntry.matchesPage (e : TlbEntry) (vpn2 : BitVec 27) (r : BitVec 2) (asid : BitVec 8) : Bool :=
  (e.vpn2 &&& ~~~(e.mask.setWidth 27)) == (vpn2 &&& ~~~(e.mask.setWidth 27)) && e.r == r && (e.g || e.asid == asid)

/-- `va[39:13]`. -/
def vaVpn2 (va : Word) : BitVec 27 := va.extractLsb' 13 27
/-- `va[63:62]`. -/
def vaRegion (va : Word) : BitVec 2 := va.extractLsb' 62 2
/-- EntryHi.ASID (R70). -/
def ehAsid (entryHi : Word) : BitVec 8 := entryHi.extractLsb' 0 8

/-- The indices of the entries that match, lowest first. -/
def tlbMatches (tlb : Vector TlbEntry 32) (vpn2 : BitVec 27) (r : BitVec 2) (asid : BitVec 8) : List Nat :=
  ((tlb.toList.zipIdx).filter (fun (e, _) => e.matchesPage vpn2 r asid)).map (·.2)

/-- The outcome of a lookup or probe among the matching indices (R193). -/
inductive TlbPick where
  | miss
  | hit (i : Nat)
  | multiple
deriving DecidableEq, Repr

/-- Resolve the matching indices by `TLB_MULTIMATCH` (R193). -/
def tlbPick (policy : MultiMatch) (recency : List Nat) (found : List Nat) : TlbPick :=
  match found with
  | [] => .miss
  | [i] => .hit i
  | i :: more =>
    match policy with
    | .refuse => .multiple
    | .lowestIndex => .hit i
    | .mostRecent => .hit ((recency.find? (fun j => (i :: more).contains j)).getD i)

/-- The number of offset bits of the entry's pages, `12 + popcount(mask)` (R190). -/
def pageBits (mask : BitVec 12) : Nat :=
  12 + ((List.range 12).filter (fun i => mask.getLsbD i)).length

/-- The page of the pair an address selects: the odd one when bit `va[k]` is 1 (R190). -/
def TlbEntry.page (e : TlbEntry) (va : Word) : TlbPage := if va.getLsbD (pageBits e.mask) then e.odd else e.even

/-- The physical address of a page frame and an address under a mask (R190). -/
def framePa (mask : BitVec 12) (pfn : BitVec 24) (va : Word) : PAddr :=
  let size := 2 ^ pageBits mask
  BitVec.ofNat 32 (pfn.toNat * 4096 / size * size + va.toNat % size)

/-! ## Translation (R170) -/

/-- The outcome of `Translate` (R170). -/
inductive TransResult where
  | stop (r : Refusal)
  | raise (e : Exc)
  | ok (seg : Segment) (pa : PAddr) (cached : Bool)
deriving DecidableEq, Repr

/-- What the translation of the current state reads. -/
def State.transCtx (s : State) : TransCtx where
  status := s.cp0.status
  config := s.cp0.config
  entryHi := s.cp0.entryHi
  tlb := s.tlb
  recency := s.recency
  multimatch := s.params.tlbMultimatch

/-- The cacheability of an unmapped segment (R153, R79). -/
def segCached (config : Word32) : SegCache → Bool
  | .uncached => false
  | .cached => true
  | .byK0 => algCached (cfgK0 config)
  | .byTlb => true

/-- The checks and the address of a matching entry (R170, R190, R192). -/
def translateEntry (seg : Segment) (e : TlbEntry) (va : Word) (kind : AccessKind) : TransResult :=
  if !legalMask e.mask then .stop .illegalPageMask
  else
    let p := e.page va
    if !p.v then .raise (.tlbInvalid kind va)
    else if kind == .store && !p.d then .raise (.tlbModified va)
    else if p.pfn.extractLsb' 20 4 != 0#4 then .stop .pfnBeyondPhysical
    else .ok seg (framePa e.mask p.pfn va) (algCached p.c)

/-- The mapped case of `Translate` (R170, R193). -/
def translateMapped (c : TransCtx) (seg : Segment) (va : Word) (kind : AccessKind) : TransResult :=
  match tlbPick c.multimatch c.recency (tlbMatches c.tlb (vaVpn2 va) (vaRegion va) (ehAsid c.entryHi)) with
  | .miss => .raise (.tlbRefill kind va (mode64 c.status))
  | .multiple => .stop .tlbMultipleMatch
  | .hit i =>
    match c.tlb[i]? with
    | some e => translateEntry seg e va kind
    | none => .raise (.tlbRefill kind va (mode64 c.status))

/-- `Translate(va, kind)` (R170). -/
def translate (c : TransCtx) (va : Word) (kind : AccessKind) : TransResult :=
  match segMode c.status with
  | none => .stop .impossibleMode
  | some m =>
    if erlUpper m va then .stop .erlXkusegUpper
    else
      match resolveIn m va with
      | none => .raise (.addrError kind va)
      | some seg =>
        if seg.mapped then translateMapped c seg va kind
        else .ok seg (lo32 (va - seg.offset)) (segCached c.config seg.cached)

/-- An access the byte order of which the spec refuses (R140, R141, R577). -/
def endianRefusal (c : Cp0) : Option Refusal :=
  if !cfgBE c.config then some .littleEndian
  else if userMode c.status && stRE c.status then some .reverseEndian
  else none

/-- Record a write whose translation effect the hazard window watches (R800); `before` is the state before it. -/
def State.noteCp0Write (s before : State) : State :=
  { s with hz := { s.hz with
      cp0 := { left := s.params.cp0HazardWindow, before := before.transCtx, after := s.transCtx } :: s.hz.cp0 } }

/-- A fetch translation that an open hazard window's write changes (R800). A window of no instruction covers none. -/
def cp0HazardAt (hz : Hazards) (va : Word) : Bool :=
  hz.cp0.any (fun h => decide (0 < h.left) && translate h.before va .fetch != translate h.after va .fetch)

/-! ## The TLB instructions' operations (R194, R197, R198) -/

/-- One page from an EntryLo register (R63, R194). -/
def pageFromLo (lo : Word) : TlbPage where
  pfn := lo.extractLsb' 6 24
  c := lo.extractLsb' 3 3
  d := lo.getLsbD 2
  v := lo.getLsbD 1

/-- `TLBEntryFromCP0()` (R194). -/
def tlbEntryFromCp0 (c : Cp0) : TlbEntry where
  mask := c.pageMask.extractLsb' 13 12
  vpn2 := vaVpn2 c.entryHi
  r := vaRegion c.entryHi
  asid := ehAsid c.entryHi
  g := c.entryLo0.getLsbD 0 && c.entryLo1.getLsbD 0
  even := pageFromLo c.entryLo0
  odd := pageFromLo c.entryLo1

/-- Install an entry at a slot (R194). -/
def State.tlbWrite (s : State) (i : Nat) (e : TlbEntry) : State :=
  { s with tlb := s.tlb.setIfInBounds i e, recency := i :: s.recency.filter (fun j => j != i) }

/-- EntryLo as TLBR reads a page back (R198). -/
def loFromPage (p : TlbPage) (g : Bool) : Word :=
  (0#34 ++ p.pfn ++ p.c ++ BitVec.ofBool p.d ++ BitVec.ofBool p.v ++ BitVec.ofBool g)

/-- EntryHi from its fields (R70). -/
def makeEntryHi (r : BitVec 2) (vpn2 : BitVec 27) (asid : BitVec 8) : Word := r ++ 0#22 ++ vpn2 ++ 0#5 ++ asid

/-- `TLBRead(i)` (R198); the VPN2 bits under the mask read as stored or as 0, by a draw. -/
def State.tlbRead (s : State) (e : TlbEntry) : State :=
  let vpn2 := if s.drawn.getLsbD 0 then e.vpn2 else e.vpn2 &&& ~~~(e.mask.setWidth 27)
  { s.drew 1 with cp0 := { s.cp0 with
      pageMask := 0#7 ++ e.mask ++ 0#13
      entryHi := makeEntryHi e.r vpn2 e.asid
      entryLo0 := loFromPage e.even e.g
      entryLo1 := loFromPage e.odd e.g } }

/-! ## Random (R204) -/

/-- `draw(Wired..31)` (R204). With an illegal Wired (R66) the set is empty and any 6-bit value is drawn. -/
def drawSlot (wired : Word32) (d : Word) : BitVec 6 :=
  if wired.toNat ≤ 31 then BitVec.ofNat 6 (wired.toNat + d.toNat % (32 - wired.toNat)) else d.setWidth 6

/-- One countdown step of Random, a field of 6 bits (R62, R204). -/
def randomNext (c : Cp0) : Word32 := if c.random = c.wired then 31#32 else (c.random - 1#32) &&& 0x3F#32

/-- Random moves in WB under `per_cycle` (R204, R760). At instruction level it is a free value instead (R18). -/
def State.retireRandom (s : State) : State :=
  if s.params.randomPolicy = .perCycle then { s with cp0 := { s.cp0 with random := randomNext s.cp0 } } else s

/-! ## The instruction cache (R220 to R228) -/

/-- `idx(va) = va[13:5]` (R220). -/
def icIndex (va : Word) : BitVec 9 := va.extractLsb' 5 9

/-- The indexed line. -/
def State.icLine (s : State) (va : Word) : IcLine := s.icache[(icIndex va).toNat]'(by have := (icIndex va).isLt; omega)

/-- Replace the indexed line. -/
def State.setIcLine (s : State) (va : Word) (l : IcLine) : State :=
  { s with icache := s.icache.set (icIndex va).toNat l (by have := (icIndex va).isLt; omega) }

/-- The tag of a physical address, `pa[31:12]` (R220). -/
def icTag (pa : PAddr) : BitVec 20 := pa.extractLsb' 12 20

/-- `probe(vaddr, paddr)` (R221). -/
def State.icProbe (s : State) (va : Word) (pa : PAddr) : Option IcLine :=
  let l := s.icLine va
  if l.valid && l.ptag == icTag pa then some l else none

/-- The 32-byte line address of a physical address (R222). -/
def lineBase (pa : PAddr) : Nat := pa.toNat / 32 * 32

/-- `fill(vaddr, paddr, data)` (R222). -/
def State.icFillWith (s : State) (va : Word) (pa : PAddr) (data : BitVec 256) : State :=
  s.setIcLine va { data := data, ptag := icTag pa, valid := true }

/-- `fill` with the 32 bytes the bus gives (R222). -/
def State.icFill (s : State) (va : Word) (pa : PAddr) : State :=
  (s.afterRead (lineBase pa) 32).icFillWith va pa (BitVec.ofNat 256 (s.busRead (lineBase pa) 32))

/-- `invalidate(vaddr)` (R223). -/
def State.icInvalidate (s : State) (va : Word) : State := s.setIcLine va { s.icLine va with valid := false }

/-- `invalidate_hit(vaddr, paddr)` (R224). -/
def State.icInvalidateHit (s : State) (va : Word) (pa : PAddr) : State :=
  if (s.icLine va).ptag = icTag pa then s.icInvalidate va else s

/-- `set_tag(vaddr, taglo)` (R225). -/
def State.icSetTag (s : State) (va : Word) (taglo : Word32) : State :=
  s.setIcLine va { s.icLine va with ptag := taglo.extractLsb' 8 20, valid := taglo.getLsbD 7 }

/-- The state `t` after a CACHE operation on the indexed line, which the instruction already fetched does not see (R627). -/
def State.hidingLine (s : State) (va : Word) (t : State) : State :=
  { t with hz := { t.hz with icBefore := some (icIndex va, s.icLine va) } }

/-- The line a fetch looks up: the indexed line, as it was before a CACHE operation of the instruction just before (R627,
log entry 27), and then also before an external invalidate of the cycles the operation stalls for (R810): DESIGN CHOICE (log
entry 27). -/
def State.fetchLine (s : State) (va : Word) : IcLine :=
  match s.hz.icBefore with
  | none => s.icLine va
  | some (i, l) => if i = icIndex va then l else s.icLine va

/-- `probe` as a fetch makes it (R221, R227, R627). -/
def State.fetchProbe (s : State) (va : Word) (pa : PAddr) : Option IcLine :=
  let l := s.fetchLine va
  if l.valid && l.ptag == icTag pa then some l else none

/-- The word at a physical address in a line, big-endian (R227). -/
def IcLine.word (l : IcLine) (pa : PAddr) : Word32 := l.data.extractLsb' (224 - pa.toNat % 32 / 4 * 32) 32

/-! ## The data-cache bookkeeping (R232) -/

/-- The refusal of a data access by the bookkeeping (R232, R626), before it is performed. -/
def bookRefusal (s : State) (store cached : Bool) (va : Word) (pa : PAddr) : Option Refusal :=
  if cached then
    if va.getLsbD 12 != pa.getLsbD 12 then some .virtualAlias else none
  else if store then
    if s.dMaybe.contains (line16 pa) then some .uncachedWriteToCached else none
  else if s.dDirty.contains (line16 pa) then some .uncachedReadOfDirty
  else none

/-- The two sets after an access is performed (R232). -/
def State.book (s : State) (store cached : Bool) (pa : PAddr) : State :=
  if cached then
    { s with
      dMaybe := lineAdd s.dMaybe (line16 pa)
      dDirty := if store then lineAdd s.dDirty (line16 pa) else s.dDirty }
  else s

/-- Whether any 16-byte line of `n` bytes at a 16-byte aligned or word address is in a set (R232). -/
def anyLine (set : List Nat) (a n : Nat) : Bool :=
  set.any (fun l => decide (l < a + n) && decide (a < l + 16))

/-! ## Watch (R660) -/

/-- The watch match (R660). -/
def watchMatch (c : Cp0) (pa : PAddr) (store : Bool) : Bool :=
  c.watchHi.extractLsb' 0 4 == 0#4 && pa.extractLsb' 3 29 == c.watchLo.extractLsb' 3 29 &&
    (if store then c.watchLo.getLsbD 0 else c.watchLo.getLsbD 1)

/-- The outcome of the watch check: none, an exception, or the refusal at exception level (R660). -/
inductive WatchResult where
  | pass
  | raise
  | refuse
deriving DecidableEq, Repr

/-- The watch check of an access (R660). -/
def watchCheck (c : Cp0) (op : MemOp) (pa : PAddr) : WatchResult :=
  if !op.isCp1 && watchMatch c pa op.isStore then
    if stEXL c.status || stERL c.status then .refuse else .raise
  else .pass

/-! ## What the EX stage of an instruction answers -/

/-- Where an instruction sends the pc (R440, R600). -/
inductive Ctl where
  | seq
  | branch (taken likely : Bool) (target : Word)
  | eret (target : Word)
deriving DecidableEq, Repr

/-- What EX leaves for the later stages (R763): the state after the immediate writes, the pending result and its
destination, the bus request, the control effect, whether an immediate write was made (R673), and the request, its type and
address, that moved a cache line over the bus (R627). -/
structure ExOut where
  st       : State
  dest     : RegNo := 0#5
  result   : Word := 0#64
  request  : Option MemReq := none
  ctl      : Ctl := .seq
  immWrite : Bool := false
  lineMove : Option (ReqType × Nat) := none
deriving DecidableEq, Repr

/-- The outcome of an instruction's EX stage: a stop, an exception with the state it is taken in, or the pending rest. -/
inductive ExResult where
  | stop (r : Refusal)
  | raise (e : Exc) (st : State)
  | ok (o : ExOut)
deriving DecidableEq, Repr

/-- Refuse by name. -/
def ExResult.refuse (r : Refusal) : ExResult := .stop r

/-- A 64-bit operation raises RI when it is not allowed, before any other effect (R275, R303). -/
def withOps64 (s : State) (k : ExResult) : ExResult :=
  if ops64Allowed s.cp0.status then k else .raise .reserved s

/-- A CP0 instruction raises CpU with CE = 0 when CP0 is not usable, before every other check (R570). -/
def withCp0 (s : State) (k : ExResult) : ExResult :=
  if cp0Usable s.cp0.status then k else .raise (.copUnusable 0#2) s

/-- A result for a general register and no other effect (R300). -/
def resultFor (rd : RegNo) (v : Word) (s : State) : ExResult := .ok { st := s, dest := rd, result := v }

/-- A branch or jump (R440, R446), `link` its link register and `result` the return address. -/
def branchOut (s : State) (taken likely : Bool) (target : Word) (link : RegNo) : ExResult :=
  if s.delay.isSome then .refuse .branchInDelaySlot
  else .ok { st := s, dest := link, result := s.pc + 8#64, ctl := .branch taken likely target }

/-- The EX stage of a data access: the checks of R502 up to the watch, then the bus request (R501). SC and SCD leave the
watch to DC (R769), but not the byte order (R140, R141), which refuses them also with LLbit = 0, when no access is made, and
every access before the watch check: DESIGN CHOICE (log entry 13). -/
def memAccess (op : MemOp) (rt : RegNo) (va : Word) (data old : Word) (s : State) : ExResult :=
  if va.toNat % op.alignment ≠ 0 then .raise (.addrError op.kind va) s
  else
    match translate s.transCtx va op.kind with
    | .stop r => .stop r
    | .raise e => .raise e s
    | .ok _ pa cached =>
      match endianRefusal s.cp0 with
      | some r => .refuse r
      | none =>
        let rq : MemReq :=
          { op := op, va := va, pa := pa, cached := cached, addr := op.firstByte pa, size := op.byteCount pa,
            data := op.storeValue pa data, old := old }
        let out : ExResult := .ok { st := s, dest := rt, request := some rq }
        if op.conditional then out
        else
          match watchCheck s.cp0 op pa with
          | .pass => out
          | .raise => .raise .watch s
          | .refuse => .refuse .watchAtExceptionLevel

/-- A load or store of the integer unit: the ops64 check first (R502). A store has no destination but SC and SCD. -/
def loadStore (op : MemOp) (rt : RegNo) (offset : BitVec 16) (base : RegNo) (s : State) : ExResult :=
  let dest := if op.isStore && !op.conditional then 0#5 else rt
  let k := memAccess op dest (effAddr s base offset) (s.readReg rt) (s.readReg rt) s
  if op.ops64 then withOps64 s k else k

/-! ## A data request in DC (R501, R761, R769) -/

/-- The outcome of DC's work on a request. -/
inductive DcResult where
  | stop (r : Refusal)
  | raise (e : Exc)
  | done (result : Word) (st : State)
deriving DecidableEq, Repr

/-- Perform a request the checks have passed: the write, or the read with the result its rule forms. A CP1 load gives its
data to the unit's register, the bits above a word drawn (R640), and does so in DC, where the access is made, not in WB: DESIGN
CHOICE (log entry 9). -/
def performRequest (rq : MemReq) (rt : RegNo) (s : State) : DcResult :=
  let a := rq.addr.toNat
  if rq.op.isStore then
    let s' := s.book true rq.cached rq.pa
    .done (boolWord rq.op.conditional) { s' with
      mem := s'.busWrite a rq.size rq.data.toNat
      hz := { s'.hz with stores := { left := 2, addr := a, size := rq.size } :: s'.hz.stores } }
  else
    let s' := (s.book false rq.cached rq.pa).afterRead a rq.size
    let v := rq.op.loadValue rq.pa (s.busRead a rq.size) rq.old
    match rq.op with
    | .lwc1 =>
      let w := s.drawn.extractLsb' 32 32 ++ lo32 v
      .done 0#64 { s'.drew 1 with cp1 := { s'.cp1 with fpr := s'.cp1.fpr.setIfInBounds rt.toNat w } }
    | .ldc1 => .done 0#64 { s' with cp1 := { s'.cp1 with fpr := s'.cp1.fpr.setIfInBounds rt.toNat v } }
    | _ => .done v s'

/-- DC's work on a request (R761): the bookkeeping's refusals, a bus error as DBE, then the access. That the refusals of
R232 and R626 are made in DC for every access, as R769 has them for SC and SCD, and not in EX with the other checks of R502,
is a DESIGN CHOICE (log entry 14). -/
def requestInDc (rq : MemReq) (rt : RegNo) (s : State) : DcResult :=
  match bookRefusal s rq.op.isStore rq.cached rq.va rq.pa with
  | some r => .stop r
  | none => if busErrorAt s.inputs rq.op.reqType rq.addr.toNat rq.size then .raise .dataBusError else performRequest rq rt s

/-- DC on a request, SC and SCD resolved first: with LLbit = 0 no access is made and the result is 0; with LLbit = 1 the
watch check comes first (R541, R769). -/
def dcAccess (rq : MemReq) (rt : RegNo) (s : State) : DcResult :=
  if rq.op.conditional then
    if s.llbit then
      match watchCheck s.cp0 rq.op rq.pa with
      | .pass => requestInDc rq rt s
      | .raise => .raise .watch
      | .refuse => .stop .watchAtExceptionLevel
    else .done 0#64 s
  else requestInDc rq rt s

/-! ## Taking an exception and returning from one (R600, R670 to R677) -/

/-- Cause.ExcCode of an exception (R650). -/
def Exc.code : Exc → BitVec 5
  | .int => 0#5
  | .tlbModified _ => 1#5
  | .tlbRefill k _ _ => if k == .store then 3#5 else 2#5
  | .tlbInvalid k _ => if k == .store then 3#5 else 2#5
  | .addrError k _ => if k == .store then 5#5 else 4#5
  | .fetchBusError => 6#5
  | .dataBusError => 7#5
  | .syscall => 8#5
  | .breakpoint => 9#5
  | .reserved => 10#5
  | .copUnusable _ => 11#5
  | .overflow => 12#5
  | .trap => 13#5
  | .floatingPoint => 15#5
  | .watch => 23#5

/-- `Offset(E)` (R672). -/
def Exc.offset : Exc → Word
  | .tlbRefill _ _ m64 => if m64 then 0x080#64 else 0x000#64
  | _ => 0x180#64

/-- The vector base (R672). -/
def vectorBase (st : Word32) : Word := if stBEV st then 0xFFFFFFFFBFC00200#64 else 0xFFFFFFFF80000000#64

/-- The address the handler of an exception starts at (R670, R672). -/
def exceptionVector (st : Word32) (e : Exc) : Word :=
  vectorBase st + (if stEXL st then 0x180#64 else e.offset)

/-- Cause after an exception (R670): BD kept when EXL was 1, CE drawn unless the exception is CpU, IP unchanged. -/
def causeAfter (c : Cp0) (e : Exc) (bd : Bool) (d : Word) : Word32 :=
  let b := if stEXL c.status then c.cause.getLsbD 31 else bd
  let ce := match e with
    | .copUnusable n => n
    | _ => d.setWidth 2
  BitVec.ofBool b ++ 0#1 ++ ce ++ 0#12 ++ causeIP c.cause ++ 0#1 ++ e.code ++ 0#2

/-- Context with its BadVPN2 field replaced (R65). -/
def setBadVpn2 (context : Word) (v : BitVec 19) : Word := context.extractLsb' 23 41 ++ v ++ 0#4

/-- XContext with its R and BadVPN2 fields replaced (R83). -/
def setXBadVpn2 (xcontext : Word) (r : BitVec 2) (v : BitVec 27) : Word := xcontext.extractLsb' 33 31 ++ r ++ v ++ 0#4

/-- The registers a TLB exception records the address in (R677). -/
def recordTlb (c : Cp0) (va : Word) : Cp0 :=
  { c with
    badVAddr := va
    context := setBadVpn2 c.context (va.extractLsb' 13 19)
    xcontext := setXBadVpn2 c.xcontext (vaRegion va) (vaVpn2 va)
    entryHi := makeEntryHi (vaRegion va) (vaVpn2 va) (ehAsid c.entryHi) }

/-- The registers an address error records the address in: Context, XContext and EntryHi unspecified (R677). -/
def recordAddr (c : Cp0) (va d1 d2 d3 : Word) : Cp0 :=
  { c with
    badVAddr := va
    context := setBadVpn2 c.context (d1.setWidth 19)
    xcontext := setXBadVpn2 c.xcontext (vaRegion d2) (vaVpn2 d2)
    entryHi := makeEntryHi (vaRegion d3) (vaVpn2 d3) (ehAsid c.entryHi) }

/-- What an exception records (R677). The free values are those after the one of Cause.CE. -/
def recordExc (c : Cp0) (e : Exc) (d1 d2 d3 : Word) : Cp0 :=
  match e with
  | .tlbModified va => recordTlb c va
  | .tlbRefill _ va _ => recordTlb c va
  | .tlbInvalid _ va => recordTlb c va
  | .addrError _ va => recordAddr c va d1 d2 d3
  | .int | .fetchBusError | .dataBusError | .syscall | .breakpoint | .reserved | .copUnusable _ | .overflow | .trap
  | .floatingPoint | .watch => c

/-- The CP0 registers after an exception of the instruction at `pc`, `bd` saying whether it is in a delay slot (R670). -/
def cp0AfterExc (c : Cp0) (e : Exc) (pc : Word) (bd : Bool) (d0 d1 d2 d3 : Word) : Cp0 :=
  { recordExc c e d1 d2 d3 with
    epc := if stEXL c.status then c.epc else if bd then pc - 4#64 else pc
    cause := causeAfter c e bd d0
    status := c.status ||| 2#32 }

/-- `TakeException(E, i, info)` for the instruction at `s.pc` (R670): four free values are set aside, of which an exception
uses those R670 and R677 leave open. The open windows of R252, R627 and R800 close, the older instructions having retired
(R665); that of R768 stays open, and the excepting instruction does not count in it (DESIGN CHOICE, log entry 8). -/
def takeException (e : Exc) (s : State) : State :=
  { s with
    cp0 := cp0AfterExc s.cp0 e s.pc s.delay.isSome s.drawn (s.drawnAt 1) (s.drawnAt 2) (s.drawnAt 3)
    pc := exceptionVector s.cp0.status e
    delay := none
    activeSeg := .sentinel
    hz := { s.hz with cp0 := [], stores := [], icBefore := none }
    draws := s.draws + 4 }

/-- The address ERET returns to (R600). -/
def eretTarget (c : Cp0) : Word := if stERL c.status then c.errorEpc else c.epc

/-- Status after ERET (R600). -/
def eretStatus (st : Word32) : Word32 := if stERL st then st &&& ~~~4#32 else st &&& ~~~2#32

/-- The EX stage of ERET (R600, R601): the redirect, Status and the active segment; LLbit is cleared in WB. -/
def eretOut (s : State) : ExResult :=
  if s.delay.isSome then .refuse .branchInDelaySlot
  else .ok { st := { s with cp0 := { s.cp0 with status := eretStatus s.cp0.status }, activeSeg := .sentinel },
             ctl := .eret (eretTarget s.cp0), immWrite := true }

/-! ## Writeback and the advance of the pc (R440, R443, R760) -/

/-- WB of an instruction (R760): the pending result, the LL marker with its physical address, ERET's LLbit. -/
def writeBack (dest : RegNo) (result : Word) (link : Option PAddr) (eret : Bool) (s : State) : State :=
  let s := s.writeReg dest result
  let s := match link with
    | some pa => { s with llbit := true, cp0 := { s.cp0 with llAddr := pa >>> 4 } }
    | none => s
  if eret then { s with llbit := false } else s

/-- Whether a control effect is ERET's. -/
def Ctl.isEret : Ctl → Bool
  | .eret _ => true
  | .seq => false
  | .branch _ _ _ => false

/-- The HI/LO window one completed instruction further (R768). -/
def Hazards.retire (hz : Hazards) : Hazards := { hz with hiloAge := min 3 (hz.hiloAge + 1) }

/-- The pc and the delay slot after an instruction (R440, R443, R600), which counts in the window of R768. -/
def State.advance (s : State) (ctl : Ctl) : State :=
  match ctl with
  | .seq =>
    match s.delay with
    | none => { s with pc := s.pc + 4#64, hz := s.hz.retire }
    | some d => { s with pc := d.next, delay := none, hz := s.hz.retire }
  | .branch taken likely target =>
    { s with
      pc := s.pc + 4#64
      delay := some { next := if taken then target else s.pc + 8#64, killed := likely && !taken }
      hz := s.hz.retire }
  | .eret target => { s with pc := target, delay := none, hz := s.hz.retire }

/-- The LL marker of a request (R769). -/
def MemReq.linkPa (rq : MemReq) : Option PAddr := if rq.op.linked then some rq.pa else none

/-- The rest of an instruction after EX, at instruction level (R823): its exception, or DC, WB and the advance. An
exception that DC raises is taken in the state before the instruction (R673). -/
def finish (r : ExResult) (s : State) : Host.Outcome State Fault Refusal :=
  match r with
  | .stop r => .refused r
  | .raise e st => .next (takeException e st)
  | .ok o =>
    match o.request with
    | none => .next ((writeBack o.dest o.result none o.ctl.isEret o.st).advance o.ctl)
    | some rq =>
      match dcAccess rq o.dest o.st with
      | .stop r => .refused r
      | .raise e => .next (takeException e s)
      | .done v st =>
        .next ((writeBack (if rq.op.isCp1 then 0#5 else o.dest) v rq.linkPa o.ctl.isEret st).advance o.ctl)

/-- A reserved word (R271, R570): RI, CpU first for a word of the COP0 group, or the refusal policy. -/
def reservedOut (cop0 : Bool) (s : State) : ExResult :=
  let k : ExResult :=
    match s.params.reservedPolicy with
    | .raiseRI => .raise .reserved s
    | .refuse => .refuse .reservedEncoding
  if cop0 then withCp0 s k else k

/-! ## Reset (R730, R736) -/

/-- `ResetHandler()` (R730). It leaves the inputs as they are: DESIGN CHOICE (log entries 5 and 16). -/
def resetHandler (s : State) : State :=
  { s with
    cp0 := { s.cp0 with
      status := (s.cp0.status &&& ~~~0x08300000#32) ||| 0x00400004#32
      config := (s.cp0.config &&& ~~~0xFFFF7FF0#32) ||| (s.params.configEc.setWidth 32 <<< 28) ||| 0x0006E460#32
      random := 31#32
      wired := 0#32 }
    llbit := false
    dDirty := []
    dMaybe := []
    pipe := .bubbles
    activeSeg := .sentinel
    pc := 0xFFFFFFFFBFC00000#64
    delay := none
    hz := { cp0 := [], stores := [], hiloAge := 3, icBefore := none }
    coldReset := false }

/-- A soft reset or NMI, if a model is asked to take one (R736): an explicit unsupported path. -/
def softReset (_ : State) : Host.Outcome State Fault Refusal := .refused .softResetOrNmi

end Sys2Proof.Machine
end

