-- ==== Sys2Proof/Machine/Alu.lean ====
section
/-! DEFINITION. The integer add, subtract, set-on-less-than and logical instructions (40_alu.md R300 to R347). Each instruction has its EX stage `ex…`, which
the pipeline runs too, and its instruction-level step `exec…`. -/

namespace Sys2Proof.Machine

/-- The word form of a trapping add or subtract: refused on an operand that is not sign-extended (R302), Overflow when the
integer result does not fit 32 bits, else its sign extension (R301, R304). -/
def trapping32 (rd : RegNo) (a b : Word) (t : Int) (s : State) : ExResult :=
  if !(sx32 a && sx32 b) then .refuse .nonSignExtendedWord
  else if fits32 t then resultFor rd (sext64 (BitVec.ofInt 32 t)) s
  else .raise .overflow s

/-- Trapping word addition (R310, R314). -/
def addTrapping32 (rd : RegNo) (a b : Word) (s : State) : ExResult :=
  trapping32 rd a b ((lo32 a).toInt + (lo32 b).toInt) s

/-- Trapping word subtraction (R312). -/
def subTrapping32 (rd : RegNo) (a b : Word) (s : State) : ExResult :=
  trapping32 rd a b ((lo32 a).toInt - (lo32 b).toInt) s

/-- The doubleword form of a trapping add or subtract (R304, R316, R318, R320). -/
def trapping64 (rd : RegNo) (t : Int) (s : State) : ExResult :=
  if fits64 t then resultFor rd (BitVec.ofInt 64 t) s else .raise .overflow s

/-- ADD: add word, Overflow when the signed sum does not fit (R310). -/
def exAdd (rd : RegNo) (rs : RegNo) (rt : RegNo) (s : State) : ExResult :=
  addTrapping32 rd (s.readReg rs) (s.readReg rt) s

/-- ADD as one instruction-level step. -/
def execAdd (rd : RegNo) (rs : RegNo) (rt : RegNo) (s : State) : Host.Outcome State Fault Refusal :=
  finish (exAdd rd rs rt s) s

/-- ADDU: add word, no trap (R311). -/
def exAddu (rd : RegNo) (rs : RegNo) (rt : RegNo) (s : State) : ExResult :=
  resultFor rd (sext64 (lo32 (s.readReg rs) + lo32 (s.readReg rt))) s

/-- ADDU as one instruction-level step. -/
def execAddu (rd : RegNo) (rs : RegNo) (rt : RegNo) (s : State) : Host.Outcome State Fault Refusal :=
  finish (exAddu rd rs rt s) s

/-- SUB: subtract word, Overflow when the difference does not fit (R312). -/
def exSub (rd : RegNo) (rs : RegNo) (rt : RegNo) (s : State) : ExResult :=
  subTrapping32 rd (s.readReg rs) (s.readReg rt) s

/-- SUB as one instruction-level step. -/
def execSub (rd : RegNo) (rs : RegNo) (rt : RegNo) (s : State) : Host.Outcome State Fault Refusal :=
  finish (exSub rd rs rt s) s

/-- SUBU: subtract word, no trap (R313). -/
def exSubu (rd : RegNo) (rs : RegNo) (rt : RegNo) (s : State) : ExResult :=
  resultFor rd (sext64 (lo32 (s.readReg rs) - lo32 (s.readReg rt))) s

/-- SUBU as one instruction-level step. -/
def execSubu (rd : RegNo) (rs : RegNo) (rt : RegNo) (s : State) : Host.Outcome State Fault Refusal :=
  finish (exSubu rd rs rt s) s

/-- DADD: add doubleword, Overflow (R316). -/
def exDadd (rd : RegNo) (rs : RegNo) (rt : RegNo) (s : State) : ExResult :=
  withOps64 s (trapping64 rd ((s.readReg rs).toInt + (s.readReg rt).toInt) s)

/-- DADD as one instruction-level step. -/
def execDadd (rd : RegNo) (rs : RegNo) (rt : RegNo) (s : State) : Host.Outcome State Fault Refusal :=
  finish (exDadd rd rs rt s) s

/-- DADDU: add doubleword, no trap (R317). -/
def exDaddu (rd : RegNo) (rs : RegNo) (rt : RegNo) (s : State) : ExResult :=
  withOps64 s (resultFor rd (s.readReg rs + s.readReg rt) s)

/-- DADDU as one instruction-level step. -/
def execDaddu (rd : RegNo) (rs : RegNo) (rt : RegNo) (s : State) : Host.Outcome State Fault Refusal :=
  finish (exDaddu rd rs rt s) s

/-- DSUB: subtract doubleword, Overflow (R318). -/
def exDsub (rd : RegNo) (rs : RegNo) (rt : RegNo) (s : State) : ExResult :=
  withOps64 s (trapping64 rd ((s.readReg rs).toInt - (s.readReg rt).toInt) s)

/-- DSUB as one instruction-level step. -/
def execDsub (rd : RegNo) (rs : RegNo) (rt : RegNo) (s : State) : Host.Outcome State Fault Refusal :=
  finish (exDsub rd rs rt s) s

/-- DSUBU: subtract doubleword, no trap (R319). -/
def exDsubu (rd : RegNo) (rs : RegNo) (rt : RegNo) (s : State) : ExResult :=
  withOps64 s (resultFor rd (s.readReg rs - s.readReg rt) s)

/-- DSUBU as one instruction-level step. -/
def execDsubu (rd : RegNo) (rs : RegNo) (rt : RegNo) (s : State) : Host.Outcome State Fault Refusal :=
  finish (exDsubu rd rs rt s) s

/-- SLT: signed 64-bit compare (R330). -/
def exSlt (rd : RegNo) (rs : RegNo) (rt : RegNo) (s : State) : ExResult :=
  resultFor rd (boolWord ((s.readReg rs).slt (s.readReg rt))) s

/-- SLT as one instruction-level step. -/
def execSlt (rd : RegNo) (rs : RegNo) (rt : RegNo) (s : State) : Host.Outcome State Fault Refusal :=
  finish (exSlt rd rs rt s) s

/-- SLTU: unsigned compare (R331). -/
def exSltu (rd : RegNo) (rs : RegNo) (rt : RegNo) (s : State) : ExResult :=
  resultFor rd (boolWord ((s.readReg rs).ult (s.readReg rt))) s

/-- SLTU as one instruction-level step. -/
def execSltu (rd : RegNo) (rs : RegNo) (rt : RegNo) (s : State) : Host.Outcome State Fault Refusal :=
  finish (exSltu rd rs rt s) s

/-- AND: and (R340). -/
def exAnd (rd : RegNo) (rs : RegNo) (rt : RegNo) (s : State) : ExResult :=
  resultFor rd (s.readReg rs &&& s.readReg rt) s

/-- AND as one instruction-level step. -/
def execAnd (rd : RegNo) (rs : RegNo) (rt : RegNo) (s : State) : Host.Outcome State Fault Refusal :=
  finish (exAnd rd rs rt s) s

/-- OR: or (R341). -/
def exOr (rd : RegNo) (rs : RegNo) (rt : RegNo) (s : State) : ExResult :=
  resultFor rd (s.readReg rs ||| s.readReg rt) s

/-- OR as one instruction-level step. -/
def execOr (rd : RegNo) (rs : RegNo) (rt : RegNo) (s : State) : Host.Outcome State Fault Refusal :=
  finish (exOr rd rs rt s) s

/-- XOR: exclusive or (R342). -/
def exXor (rd : RegNo) (rs : RegNo) (rt : RegNo) (s : State) : ExResult :=
  resultFor rd (s.readReg rs ^^^ s.readReg rt) s

/-- XOR as one instruction-level step. -/
def execXor (rd : RegNo) (rs : RegNo) (rt : RegNo) (s : State) : Host.Outcome State Fault Refusal :=
  finish (exXor rd rs rt s) s

/-- NOR: not or (R343). -/
def exNor (rd : RegNo) (rs : RegNo) (rt : RegNo) (s : State) : ExResult :=
  resultFor rd (~~~(s.readReg rs ||| s.readReg rt)) s

/-- NOR as one instruction-level step. -/
def execNor (rd : RegNo) (rs : RegNo) (rt : RegNo) (s : State) : Host.Outcome State Fault Refusal :=
  finish (exNor rd rs rt s) s

/-- ADDI: add immediate word, Overflow (R314). -/
def exAddi (rt : RegNo) (rs : RegNo) (imm : BitVec 16) (s : State) : ExResult :=
  addTrapping32 rt (s.readReg rs) (sextImm imm) s

/-- ADDI as one instruction-level step. -/
def execAddi (rt : RegNo) (rs : RegNo) (imm : BitVec 16) (s : State) : Host.Outcome State Fault Refusal :=
  finish (exAddi rt rs imm s) s

/-- ADDIU: add immediate word, no trap (R315). -/
def exAddiu (rt : RegNo) (rs : RegNo) (imm : BitVec 16) (s : State) : ExResult :=
  resultFor rt (sext64 (lo32 (s.readReg rs) + imm.signExtend 32)) s

/-- ADDIU as one instruction-level step. -/
def execAddiu (rt : RegNo) (rs : RegNo) (imm : BitVec 16) (s : State) : Host.Outcome State Fault Refusal :=
  finish (exAddiu rt rs imm s) s

/-- DADDI: add immediate doubleword, Overflow (R320). -/
def exDaddi (rt : RegNo) (rs : RegNo) (imm : BitVec 16) (s : State) : ExResult :=
  withOps64 s (trapping64 rt ((s.readReg rs).toInt + imm.toInt) s)

/-- DADDI as one instruction-level step. -/
def execDaddi (rt : RegNo) (rs : RegNo) (imm : BitVec 16) (s : State) : Host.Outcome State Fault Refusal :=
  finish (exDaddi rt rs imm s) s

/-- DADDIU: add immediate doubleword, no trap (R321). -/
def exDaddiu (rt : RegNo) (rs : RegNo) (imm : BitVec 16) (s : State) : ExResult :=
  withOps64 s (resultFor rt (s.readReg rs + sextImm imm) s)

/-- DADDIU as one instruction-level step. -/
def execDaddiu (rt : RegNo) (rs : RegNo) (imm : BitVec 16) (s : State) : Host.Outcome State Fault Refusal :=
  finish (exDaddiu rt rs imm s) s

/-- SLTI: signed compare with the immediate (R332). -/
def exSlti (rt : RegNo) (rs : RegNo) (imm : BitVec 16) (s : State) : ExResult :=
  resultFor rt (boolWord ((s.readReg rs).slt (sextImm imm))) s

/-- SLTI as one instruction-level step. -/
def execSlti (rt : RegNo) (rs : RegNo) (imm : BitVec 16) (s : State) : Host.Outcome State Fault Refusal :=
  finish (exSlti rt rs imm s) s

/-- SLTIU: unsigned compare with the sign-extended immediate (R333). -/
def exSltiu (rt : RegNo) (rs : RegNo) (imm : BitVec 16) (s : State) : ExResult :=
  resultFor rt (boolWord ((s.readReg rs).ult (sextImm imm))) s

/-- SLTIU as one instruction-level step. -/
def execSltiu (rt : RegNo) (rs : RegNo) (imm : BitVec 16) (s : State) : Host.Outcome State Fault Refusal :=
  finish (exSltiu rt rs imm s) s

/-- ANDI: and with the zero-extended immediate (R344). -/
def exAndi (rt : RegNo) (rs : RegNo) (imm : BitVec 16) (s : State) : ExResult :=
  resultFor rt (s.readReg rs &&& zextImm imm) s

/-- ANDI as one instruction-level step. -/
def execAndi (rt : RegNo) (rs : RegNo) (imm : BitVec 16) (s : State) : Host.Outcome State Fault Refusal :=
  finish (exAndi rt rs imm s) s

/-- ORI: or with the zero-extended immediate (R345). -/
def exOri (rt : RegNo) (rs : RegNo) (imm : BitVec 16) (s : State) : ExResult :=
  resultFor rt (s.readReg rs ||| zextImm imm) s

/-- ORI as one instruction-level step. -/
def execOri (rt : RegNo) (rs : RegNo) (imm : BitVec 16) (s : State) : Host.Outcome State Fault Refusal :=
  finish (exOri rt rs imm s) s

/-- XORI: exclusive or with the zero-extended immediate (R346). -/
def exXori (rt : RegNo) (rs : RegNo) (imm : BitVec 16) (s : State) : ExResult :=
  resultFor rt (s.readReg rs ^^^ zextImm imm) s

/-- XORI as one instruction-level step. -/
def execXori (rt : RegNo) (rs : RegNo) (imm : BitVec 16) (s : State) : Host.Outcome State Fault Refusal :=
  finish (exXori rt rs imm s) s

/-- LUI: load upper immediate (R347). -/
def exLui (rt : RegNo) (imm : BitVec 16) (s : State) : ExResult := resultFor rt (luiValue imm) s

/-- LUI as one instruction-level step. -/
def execLui (rt : RegNo) (imm : BitVec 16) (s : State) : Host.Outcome State Fault Refusal :=
  finish (exLui rt imm s) s

end Sys2Proof.Machine
end

