-- ==== Sys2Proof/Machine/Branch.lean ====
section
/-! DEFINITION. The jumps and branches (42_branch.md R440 to R477). Each instruction has its EX stage `ex…`, which
the pipeline runs too, and its instruction-level step `exec…`. -/

namespace Sys2Proof.Machine

/-- The linking branches: `rs = 31` is refused (R474), the link is written whether or not the branch is taken (R442). -/
def linkBranch (rs : RegNo) (taken likely : Bool) (imm : BitVec 16) (s : State) : ExResult :=
  if rs = 31#5 then .refuse .linkBranchReadsR31 else branchOut s taken likely (branchTarget s.pc imm) 31#5

/-- J: jump (R450). -/
def exJ (target : BitVec 26) (s : State) : ExResult := branchOut s true false (jumpTarget s.pc target) 0#5

/-- J as one instruction-level step. -/
def execJ (target : BitVec 26) (s : State) : Host.Outcome State Fault Refusal :=
  finish (exJ target s) s

/-- JAL: jump and link in register 31 (R451). -/
def exJal (target : BitVec 26) (s : State) : ExResult := branchOut s true false (jumpTarget s.pc target) 31#5

/-- JAL as one instruction-level step. -/
def execJal (target : BitVec 26) (s : State) : Host.Outcome State Fault Refusal :=
  finish (exJal target s) s

/-- JR: jump register (R452). -/
def exJr (rs : RegNo) (s : State) : ExResult := branchOut s true false (s.readReg rs) 0#5

/-- JR as one instruction-level step. -/
def execJr (rs : RegNo) (s : State) : Host.Outcome State Fault Refusal :=
  finish (exJr rs s) s

/-- JALR: jump and link register (R453). -/
def exJalr (rd : RegNo) (rs : RegNo) (s : State) : ExResult :=
  if rd = rs then .refuse .jalrSameRegister else branchOut s true false (s.readReg rs) rd

/-- JALR as one instruction-level step. -/
def execJalr (rd : RegNo) (rs : RegNo) (s : State) : Host.Outcome State Fault Refusal :=
  finish (exJalr rd rs s) s

/-- BEQ: branch (R460). -/
def exBeq (rs : RegNo) (rt : RegNo) (imm : BitVec 16) (s : State) : ExResult :=
  branchOut s (s.readReg rs == s.readReg rt) false (branchTarget s.pc imm) 0#5

/-- BEQ as one instruction-level step. -/
def execBeq (rs : RegNo) (rt : RegNo) (imm : BitVec 16) (s : State) : Host.Outcome State Fault Refusal :=
  finish (exBeq rs rt imm s) s

/-- BNE: branch (R461). -/
def exBne (rs : RegNo) (rt : RegNo) (imm : BitVec 16) (s : State) : ExResult :=
  branchOut s (s.readReg rs != s.readReg rt) false (branchTarget s.pc imm) 0#5

/-- BNE as one instruction-level step. -/
def execBne (rs : RegNo) (rt : RegNo) (imm : BitVec 16) (s : State) : Host.Outcome State Fault Refusal :=
  finish (exBne rs rt imm s) s

/-- BLEZ: branch (R462). -/
def exBlez (rs : RegNo) (imm : BitVec 16) (s : State) : ExResult :=
  branchOut s (isLez (s.readReg rs)) false (branchTarget s.pc imm) 0#5

/-- BLEZ as one instruction-level step. -/
def execBlez (rs : RegNo) (imm : BitVec 16) (s : State) : Host.Outcome State Fault Refusal :=
  finish (exBlez rs imm s) s

/-- BGTZ: branch (R463). -/
def exBgtz (rs : RegNo) (imm : BitVec 16) (s : State) : ExResult :=
  branchOut s (!isLez (s.readReg rs)) false (branchTarget s.pc imm) 0#5

/-- BGTZ as one instruction-level step. -/
def execBgtz (rs : RegNo) (imm : BitVec 16) (s : State) : Host.Outcome State Fault Refusal :=
  finish (exBgtz rs imm s) s

/-- BEQL: likely branch (R464). -/
def exBeql (rs : RegNo) (rt : RegNo) (imm : BitVec 16) (s : State) : ExResult :=
  branchOut s (s.readReg rs == s.readReg rt) true (branchTarget s.pc imm) 0#5

/-- BEQL as one instruction-level step. -/
def execBeql (rs : RegNo) (rt : RegNo) (imm : BitVec 16) (s : State) : Host.Outcome State Fault Refusal :=
  finish (exBeql rs rt imm s) s

/-- BNEL: likely branch (R465). -/
def exBnel (rs : RegNo) (rt : RegNo) (imm : BitVec 16) (s : State) : ExResult :=
  branchOut s (s.readReg rs != s.readReg rt) true (branchTarget s.pc imm) 0#5

/-- BNEL as one instruction-level step. -/
def execBnel (rs : RegNo) (rt : RegNo) (imm : BitVec 16) (s : State) : Host.Outcome State Fault Refusal :=
  finish (exBnel rs rt imm s) s

/-- BLEZL: likely branch (R466). -/
def exBlezl (rs : RegNo) (imm : BitVec 16) (s : State) : ExResult :=
  branchOut s (isLez (s.readReg rs)) true (branchTarget s.pc imm) 0#5

/-- BLEZL as one instruction-level step. -/
def execBlezl (rs : RegNo) (imm : BitVec 16) (s : State) : Host.Outcome State Fault Refusal :=
  finish (exBlezl rs imm s) s

/-- BGTZL: likely branch (R467). -/
def exBgtzl (rs : RegNo) (imm : BitVec 16) (s : State) : ExResult :=
  branchOut s (!isLez (s.readReg rs)) true (branchTarget s.pc imm) 0#5

/-- BGTZL as one instruction-level step. -/
def execBgtzl (rs : RegNo) (imm : BitVec 16) (s : State) : Host.Outcome State Fault Refusal :=
  finish (exBgtzl rs imm s) s

/-- BLTZ: branch (R470). -/
def exBltz (rs : RegNo) (imm : BitVec 16) (s : State) : ExResult :=
  branchOut s (isNeg (s.readReg rs)) false (branchTarget s.pc imm) 0#5

/-- BLTZ as one instruction-level step. -/
def execBltz (rs : RegNo) (imm : BitVec 16) (s : State) : Host.Outcome State Fault Refusal :=
  finish (exBltz rs imm s) s

/-- BGEZ: branch (R471). -/
def exBgez (rs : RegNo) (imm : BitVec 16) (s : State) : ExResult :=
  branchOut s (!isNeg (s.readReg rs)) false (branchTarget s.pc imm) 0#5

/-- BGEZ as one instruction-level step. -/
def execBgez (rs : RegNo) (imm : BitVec 16) (s : State) : Host.Outcome State Fault Refusal :=
  finish (exBgez rs imm s) s

/-- BLTZL: likely branch (R472). -/
def exBltzl (rs : RegNo) (imm : BitVec 16) (s : State) : ExResult :=
  branchOut s (isNeg (s.readReg rs)) true (branchTarget s.pc imm) 0#5

/-- BLTZL as one instruction-level step. -/
def execBltzl (rs : RegNo) (imm : BitVec 16) (s : State) : Host.Outcome State Fault Refusal :=
  finish (exBltzl rs imm s) s

/-- BGEZL: likely branch (R473). -/
def exBgezl (rs : RegNo) (imm : BitVec 16) (s : State) : ExResult :=
  branchOut s (!isNeg (s.readReg rs)) true (branchTarget s.pc imm) 0#5

/-- BGEZL as one instruction-level step. -/
def execBgezl (rs : RegNo) (imm : BitVec 16) (s : State) : Host.Outcome State Fault Refusal :=
  finish (exBgezl rs imm s) s

/-- BLTZAL: linking branch (R474). -/
def exBltzal (rs : RegNo) (imm : BitVec 16) (s : State) : ExResult := linkBranch rs (isNeg (s.readReg rs)) false imm s

/-- BLTZAL as one instruction-level step. -/
def execBltzal (rs : RegNo) (imm : BitVec 16) (s : State) : Host.Outcome State Fault Refusal :=
  finish (exBltzal rs imm s) s

/-- BGEZAL: linking branch (R475). -/
def exBgezal (rs : RegNo) (imm : BitVec 16) (s : State) : ExResult :=
  linkBranch rs (!isNeg (s.readReg rs)) false imm s

/-- BGEZAL as one instruction-level step. -/
def execBgezal (rs : RegNo) (imm : BitVec 16) (s : State) : Host.Outcome State Fault Refusal :=
  finish (exBgezal rs imm s) s

/-- BLTZALL: linking likely branch (R476). -/
def exBltzall (rs : RegNo) (imm : BitVec 16) (s : State) : ExResult := linkBranch rs (isNeg (s.readReg rs)) true imm s

/-- BLTZALL as one instruction-level step. -/
def execBltzall (rs : RegNo) (imm : BitVec 16) (s : State) : Host.Outcome State Fault Refusal :=
  finish (exBltzall rs imm s) s

/-- BGEZALL: linking likely branch (R477). -/
def exBgezall (rs : RegNo) (imm : BitVec 16) (s : State) : ExResult :=
  linkBranch rs (!isNeg (s.readReg rs)) true imm s

/-- BGEZALL as one instruction-level step. -/
def execBgezall (rs : RegNo) (imm : BitVec 16) (s : State) : Host.Outcome State Fault Refusal :=
  finish (exBgezall rs imm s) s

end Sys2Proof.Machine
end

