-- ==== Sys2Proof/Machine/Cache.lean ====
section
/-! DEFINITION. CACHE (44_system.md R620 to R627). Each instruction has its EX stage `ex…`, which
the pipeline runs too, and its instruction-level step `exec…`. -/

namespace Sys2Proof.Machine

/-- An operation that completes in EX with the state `st`, `imm` saying whether it made an immediate write: of CP0, an
instruction-cache line (R673, R691) or, by the model's choice, memory. What it does to DDirty and DMaybe is none, and DC
takes it back with an exception (DESIGN CHOICE, log entry 26). -/
def cacheDone (imm : Bool) (st : State) : ExResult := .ok { st := st, immWrite := imm }

/-- The same with the line at `a` moved over the bus, which takes the time of a refill (log entry 27). It counts as an
immediate write also when the bus answers `error` to a write-back and nothing is written: DESIGN CHOICE (log entry 26). -/
def cacheMoved (ty : ReqType) (a : Nat) (st : State) : ExResult :=
  .ok { st := st, immWrite := true, lineMove := some (ty, a) }

/-- The 32 bytes a Fill installs (R621): the bus's, or free values when it answers `error`, for which the spec states no
data. DESIGN CHOICE (log entry 12). -/
def fillData (pa : PAddr) (s : State) : BitVec 256 :=
  BitVec.ofNat 256
    (if busErrorAt s.inputs .read (lineBase pa) 32 then s.deviceData 32 else s.busRead (lineBase pa) 32)

/-- The instruction-cache operations (R621); the instruction already fetched does not see the line they change (R627). A
write-back the bus answers `error` leaves memory as it is (log entry 12) and still keeps DC from taking an interrupt on it
(DESIGN CHOICE, log entry 26). The bytes a write-back writes are seen already by the next instruction's fetch where it reads
memory (DESIGN CHOICE, log entry 27). -/
def icacheOp (operation : BitVec 3) (va : Word) (pa : PAddr) (s : State) : ExResult :=
  match operation with
  | 0#3 => cacheDone true (s.hidingLine va (s.icInvalidate va))
  | 1#3 =>
    let l := s.icLine va
    cacheDone true { s with cp0 := { s.cp0 with tagLo := 0#4 ++ l.ptag ++ BitVec.ofBool l.valid ++ 0#7 } }
  | 2#3 => cacheDone true (s.hidingLine va (s.icSetTag va s.cp0.tagLo))
  | 4#3 => cacheDone ((s.icLine va).ptag == icTag pa) (s.hidingLine va (s.icInvalidateHit va pa))
  | 5#3 =>
    if anyLine s.dDirty (lineBase pa) 32 then .refuse .fetchOfDirtyLine
    else cacheMoved .read (lineBase pa) (s.hidingLine va ((s.drew 4).icFillWith va pa (fillData pa s)))
  | 6#3 =>
    match s.icProbe va pa with
    | none => cacheDone false s
    | some l =>
      if anyLine s.dMaybe (lineBase pa) 32 then .refuse .icacheWriteBackOverData
      else if busErrorAt s.inputs .write (lineBase pa) 32 then cacheMoved .write (lineBase pa) s
      else cacheMoved .write (lineBase pa) { s with mem := s.busWrite (lineBase pa) 32 l.data.toNat }
  | _ => .refuse .undefinedCacheOp

/-- `L[12:4] = didx(va)` (R622). -/
def sameDIndex (va : Word) (line : Nat) : Bool := line / 16 % 512 == (va.extractLsb' 4 9).toNat

/-- The data-cache operations on the two sets (R622). -/
def dcacheOp (operation : BitVec 3) (va : Word) (pa : PAddr) (s : State) : ExResult :=
  let other := fun l => !sameDIndex va l
  match operation with
  | 0#3 => cacheDone false { s with dDirty := s.dDirty.filter other, dMaybe := s.dMaybe.filter other }
  | 1#3 => cacheDone true { s.drew 1 with cp0 := { s.cp0 with tagLo := lo32 s.drawn &&& 0x0FFFFFC0#32 } }
  | 2#3 =>
    if s.cp0.tagLo.extractLsb' 6 2 != 0#2 then .refuse .tagStoreCreatesLine
    else if s.dDirty.any (sameDIndex va) then .refuse .discardOfDirtyLine
    else cacheDone false { s with dMaybe := s.dMaybe.filter other }
  | 3#3 => .refuse .createDirtyExclusive
  | 4#3 =>
    if s.dDirty.contains (line16 pa) then .refuse .discardOfDirtyLine
    else cacheDone false { s with dMaybe := lineRemove s.dMaybe (line16 pa) }
  | 5#3 => cacheDone false { s with
      dDirty := lineRemove s.dDirty (line16 pa), dMaybe := lineRemove s.dMaybe (line16 pa) }
  | 6#3 => cacheDone false { s with dDirty := lineRemove s.dDirty (line16 pa) }
  | _ => .refuse .undefinedCacheOp

/-- `CacheOp` by the cache the low bits of the operation select (R620, R623). -/
def cacheOp (op : BitVec 5) (va : Word) (pa : PAddr) (s : State) : ExResult :=
  match op.extractLsb' 0 2 with
  | 0#2 => icacheOp (op.extractLsb' 2 3) va pa s
  | 1#2 => dcacheOp (op.extractLsb' 2 3) va pa s
  | _ => .refuse .secondaryCacheOp

/-- CACHE after the usability check (R620): translated as a load whatever the operation, nothing more with
`REFERENCE_NOOP_QUIRKS` (R572). -/
def cacheOut (op : BitVec 5) (va : Word) (s : State) : ExResult :=
  match translate s.transCtx va .load with
  | .stop r => .stop r
  | .raise e => .raise e s
  | .ok _ pa _ => if s.params.noopQuirks then .ok { st := s } else cacheOp op va pa s

/-- CACHE: cache operation (R620). -/
def exCache (op : BitVec 5) (offset : BitVec 16) (base : RegNo) (s : State) : ExResult :=
  withCp0 s (cacheOut op (effAddr s base offset) s)

/-- CACHE as one instruction-level step. -/
def execCache (op : BitVec 5) (offset : BitVec 16) (base : RegNo) (s : State) : Host.Outcome State Fault Refusal :=
  finish (exCache op offset base s) s

end Sys2Proof.Machine
end

