-- ==== Sys2Proof/Machine/Coprocessor.lean ====
section
/-! DEFINITION. The CORE's side of coprocessors 1 and 2 (44_system.md R640 to R642). Each instruction has its EX stage `ex…`, which
the pipeline runs too, and its instruction-level step `exec…`. -/

namespace Sys2Proof.Machine

/-- A CP1 instruction needs CU1, then a unit (R640). -/
def withCp1 (s : State) (k : ExResult) : ExResult :=
  if !stCU1 s.cp0.status then .raise (.copUnusable 1#2) s
  else if !s.params.cp1Present then .refuse .cp1NotModelled
  else k

/-- A CP1 register. -/
def fprRead (s : State) (r : RegNo) : Word := s.cp1.fpr[r.toNat]'(by have := r.isLt; omega)

/-- Write a CP1 register. -/
def fprWrite (s : State) (r : RegNo) (v : Word) : State :=
  { s with cp1 := { s.cp1 with fpr := s.cp1.fpr.set r.toNat v (by have := r.isLt; omega) } }

/-- A word the unit executes itself: its new state, or its exception (R640). That the unit's registers are written in EX,
as an immediate write that defers an interrupt (R673, R691 do not list it), is a DESIGN CHOICE (log entries 9 and 26). -/
def cp1Unit (payload : BitVec 26) (s : State) : ExResult :=
  let r := Config.cp1Exec payload (stFR s.cp0.status) s.cp1
  if r.2 then .raise .floatingPoint { s with cp1 := r.1 }
  else .ok { st := { s with cp1 := r.1 }, immWrite := true }

/-- The moves and branches of the interface R640 names, by the sub-opcode `iw[25:21]`; every other word is the unit's.
The sub-opcodes are PRESUMED (log entry 9): the spec gives them no numbers. A move to the unit counts as an immediate write
(DESIGN CHOICE, log entries 9 and 26). -/
def cop1Out (payload : BitVec 26) (s : State) : ExResult :=
  let rt : RegNo := payload.extractLsb' 16 5
  let fs : RegNo := payload.extractLsb' 11 5
  let imm : BitVec 16 := payload.extractLsb' 0 16
  match payload.extractLsb' 21 5 with
  | 0#5 => resultFor rt (sext64 (lo32 (fprRead s fs))) s
  | 1#5 => resultFor rt (fprRead s fs) s
  | 2#5 => resultFor rt (sext64 (s.cp1.fcr[fs.toNat]'(by have := fs.isLt; omega))) s
  | 4#5 => .ok { st := fprWrite (s.drew 1) fs (s.drawn.extractLsb' 32 32 ++ lo32 (s.readReg rt)), immWrite := true }
  | 5#5 => .ok { st := fprWrite s fs (s.readReg rt), immWrite := true }
  | 6#5 =>
    .ok { st := { s with cp1 := { s.cp1 with
                    fcr := s.cp1.fcr.set fs.toNat (lo32 (s.readReg rt)) (by have := fs.isLt; omega) } },
          immWrite := true }
  | 8#5 =>
    match rt with
    | 0#5 => branchOut s (!s.cp1.cond) false (branchTarget s.pc imm) 0#5
    | 1#5 => branchOut s s.cp1.cond false (branchTarget s.pc imm) 0#5
    | 2#5 => branchOut s (!s.cp1.cond) true (branchTarget s.pc imm) 0#5
    | 3#5 => branchOut s s.cp1.cond true (branchTarget s.pc imm) 0#5
    | _ => cp1Unit payload s
  | _ => cp1Unit payload s

/-- The CP1 loads and stores: the checks of LW, SW, LD and SD but for ops64, the register the unit's (R640). -/
def cp1LoadStore (op : MemOp) (ft : RegNo) (offset : BitVec 16) (base : RegNo) (s : State) : ExResult :=
  memAccess op ft (effAddr s base offset) (fprRead s ft) 0#64 s

/-- A CP2 instruction: CpU with CE = 2 while CU2 = 0, else RI, there being no coprocessor 2 (R641). -/
def noCop2 (s : State) : ExResult :=
  if !stCU2 s.cp0.status then .raise (.copUnusable 2#2) s else .raise .reserved s

/-- COP1: hand a word to the CP1 unit (R640). -/
def exCop1 (payload : BitVec 26) (s : State) : ExResult := withCp1 s (cop1Out payload s)

/-- COP1 as one instruction-level step. -/
def execCop1 (payload : BitVec 26) (s : State) : Host.Outcome State Fault Refusal :=
  finish (exCop1 payload s) s

/-- LWC1: load to the unit (R640). -/
def exLwc1 (rt : RegNo) (offset : BitVec 16) (base : RegNo) (s : State) : ExResult :=
  withCp1 s (cp1LoadStore .lwc1 rt offset base s)

/-- LWC1 as one instruction-level step. -/
def execLwc1 (rt : RegNo) (offset : BitVec 16) (base : RegNo) (s : State) : Host.Outcome State Fault Refusal :=
  finish (exLwc1 rt offset base s) s

/-- LDC1: load to the unit (R640). -/
def exLdc1 (rt : RegNo) (offset : BitVec 16) (base : RegNo) (s : State) : ExResult :=
  withCp1 s (cp1LoadStore .ldc1 rt offset base s)

/-- LDC1 as one instruction-level step. -/
def execLdc1 (rt : RegNo) (offset : BitVec 16) (base : RegNo) (s : State) : Host.Outcome State Fault Refusal :=
  finish (exLdc1 rt offset base s) s

/-- SWC1: store from the unit (R640). -/
def exSwc1 (rt : RegNo) (offset : BitVec 16) (base : RegNo) (s : State) : ExResult :=
  withCp1 s (cp1LoadStore .swc1 rt offset base s)

/-- SWC1 as one instruction-level step. -/
def execSwc1 (rt : RegNo) (offset : BitVec 16) (base : RegNo) (s : State) : Host.Outcome State Fault Refusal :=
  finish (exSwc1 rt offset base s) s

/-- SDC1: store from the unit (R640). -/
def exSdc1 (rt : RegNo) (offset : BitVec 16) (base : RegNo) (s : State) : ExResult :=
  withCp1 s (cp1LoadStore .sdc1 rt offset base s)

/-- SDC1 as one instruction-level step. -/
def execSdc1 (rt : RegNo) (offset : BitVec 16) (base : RegNo) (s : State) : Host.Outcome State Fault Refusal :=
  finish (exSdc1 rt offset base s) s

/-- COP2: no coprocessor 2 (R641). -/
def exCop2 (_payload : BitVec 26) (s : State) : ExResult := noCop2 s

/-- COP2 as one instruction-level step. -/
def execCop2 (payload : BitVec 26) (s : State) : Host.Outcome State Fault Refusal :=
  finish (exCop2 payload s) s

/-- LWC2: no coprocessor 2 (R641). -/
def exLwc2 (_rt : RegNo) (_offset : BitVec 16) (_base : RegNo) (s : State) : ExResult := noCop2 s

/-- LWC2 as one instruction-level step. -/
def execLwc2 (rt : RegNo) (offset : BitVec 16) (base : RegNo) (s : State) : Host.Outcome State Fault Refusal :=
  finish (exLwc2 rt offset base s) s

/-- LDC2: no coprocessor 2 (R641). -/
def exLdc2 (_rt : RegNo) (_offset : BitVec 16) (_base : RegNo) (s : State) : ExResult := noCop2 s

/-- LDC2 as one instruction-level step. -/
def execLdc2 (rt : RegNo) (offset : BitVec 16) (base : RegNo) (s : State) : Host.Outcome State Fault Refusal :=
  finish (exLdc2 rt offset base s) s

/-- SWC2: no coprocessor 2 (R641). -/
def exSwc2 (_rt : RegNo) (_offset : BitVec 16) (_base : RegNo) (s : State) : ExResult := noCop2 s

/-- SWC2 as one instruction-level step. -/
def execSwc2 (rt : RegNo) (offset : BitVec 16) (base : RegNo) (s : State) : Host.Outcome State Fault Refusal :=
  finish (exSwc2 rt offset base s) s

/-- SDC2: no coprocessor 2 (R641). -/
def exSdc2 (_rt : RegNo) (_offset : BitVec 16) (_base : RegNo) (s : State) : ExResult := noCop2 s

/-- SDC2 as one instruction-level step. -/
def execSdc2 (rt : RegNo) (offset : BitVec 16) (base : RegNo) (s : State) : Host.Outcome State Fault Refusal :=
  finish (exSdc2 rt offset base s) s

end Sys2Proof.Machine
end

