-- ==== Sys2Proof/Machine/LoadStore.lean ====
section
/-! DEFINITION. The loads, stores, LL/SC pairs and SYNC (43_loadstore.md R500 to R560), over the shared `loadStore`. Each instruction has its EX stage `ex…`, which
the pipeline runs too, and its instruction-level step `exec…`. -/

namespace Sys2Proof.Machine

/-- LB: load (R510). -/
def exLb (rt : RegNo) (offset : BitVec 16) (base : RegNo) (s : State) : ExResult := loadStore .lb rt offset base s

/-- LB as one instruction-level step. -/
def execLb (rt : RegNo) (offset : BitVec 16) (base : RegNo) (s : State) : Host.Outcome State Fault Refusal :=
  finish (exLb rt offset base s) s

/-- LBU: load (R511). -/
def exLbu (rt : RegNo) (offset : BitVec 16) (base : RegNo) (s : State) : ExResult := loadStore .lbu rt offset base s

/-- LBU as one instruction-level step. -/
def execLbu (rt : RegNo) (offset : BitVec 16) (base : RegNo) (s : State) : Host.Outcome State Fault Refusal :=
  finish (exLbu rt offset base s) s

/-- LH: load (R512). -/
def exLh (rt : RegNo) (offset : BitVec 16) (base : RegNo) (s : State) : ExResult := loadStore .lh rt offset base s

/-- LH as one instruction-level step. -/
def execLh (rt : RegNo) (offset : BitVec 16) (base : RegNo) (s : State) : Host.Outcome State Fault Refusal :=
  finish (exLh rt offset base s) s

/-- LHU: load (R513). -/
def exLhu (rt : RegNo) (offset : BitVec 16) (base : RegNo) (s : State) : ExResult := loadStore .lhu rt offset base s

/-- LHU as one instruction-level step. -/
def execLhu (rt : RegNo) (offset : BitVec 16) (base : RegNo) (s : State) : Host.Outcome State Fault Refusal :=
  finish (exLhu rt offset base s) s

/-- LW: load (R514). -/
def exLw (rt : RegNo) (offset : BitVec 16) (base : RegNo) (s : State) : ExResult := loadStore .lw rt offset base s

/-- LW as one instruction-level step. -/
def execLw (rt : RegNo) (offset : BitVec 16) (base : RegNo) (s : State) : Host.Outcome State Fault Refusal :=
  finish (exLw rt offset base s) s

/-- LWU: load (R515). -/
def exLwu (rt : RegNo) (offset : BitVec 16) (base : RegNo) (s : State) : ExResult := loadStore .lwu rt offset base s

/-- LWU as one instruction-level step. -/
def execLwu (rt : RegNo) (offset : BitVec 16) (base : RegNo) (s : State) : Host.Outcome State Fault Refusal :=
  finish (exLwu rt offset base s) s

/-- LD: load (R516). -/
def exLd (rt : RegNo) (offset : BitVec 16) (base : RegNo) (s : State) : ExResult := loadStore .ld rt offset base s

/-- LD as one instruction-level step. -/
def execLd (rt : RegNo) (offset : BitVec 16) (base : RegNo) (s : State) : Host.Outcome State Fault Refusal :=
  finish (exLd rt offset base s) s

/-- LWL: load (R521). -/
def exLwl (rt : RegNo) (offset : BitVec 16) (base : RegNo) (s : State) : ExResult := loadStore .lwl rt offset base s

/-- LWL as one instruction-level step. -/
def execLwl (rt : RegNo) (offset : BitVec 16) (base : RegNo) (s : State) : Host.Outcome State Fault Refusal :=
  finish (exLwl rt offset base s) s

/-- LWR: load (R522). -/
def exLwr (rt : RegNo) (offset : BitVec 16) (base : RegNo) (s : State) : ExResult := loadStore .lwr rt offset base s

/-- LWR as one instruction-level step. -/
def execLwr (rt : RegNo) (offset : BitVec 16) (base : RegNo) (s : State) : Host.Outcome State Fault Refusal :=
  finish (exLwr rt offset base s) s

/-- LDL: load (R523). -/
def exLdl (rt : RegNo) (offset : BitVec 16) (base : RegNo) (s : State) : ExResult := loadStore .ldl rt offset base s

/-- LDL as one instruction-level step. -/
def execLdl (rt : RegNo) (offset : BitVec 16) (base : RegNo) (s : State) : Host.Outcome State Fault Refusal :=
  finish (exLdl rt offset base s) s

/-- LDR: load (R524). -/
def exLdr (rt : RegNo) (offset : BitVec 16) (base : RegNo) (s : State) : ExResult := loadStore .ldr rt offset base s

/-- LDR as one instruction-level step. -/
def execLdr (rt : RegNo) (offset : BitVec 16) (base : RegNo) (s : State) : Host.Outcome State Fault Refusal :=
  finish (exLdr rt offset base s) s

/-- SB: store (R530). -/
def exSb (rt : RegNo) (offset : BitVec 16) (base : RegNo) (s : State) : ExResult := loadStore .sb rt offset base s

/-- SB as one instruction-level step. -/
def execSb (rt : RegNo) (offset : BitVec 16) (base : RegNo) (s : State) : Host.Outcome State Fault Refusal :=
  finish (exSb rt offset base s) s

/-- SH: store (R531). -/
def exSh (rt : RegNo) (offset : BitVec 16) (base : RegNo) (s : State) : ExResult := loadStore .sh rt offset base s

/-- SH as one instruction-level step. -/
def execSh (rt : RegNo) (offset : BitVec 16) (base : RegNo) (s : State) : Host.Outcome State Fault Refusal :=
  finish (exSh rt offset base s) s

/-- SW: store (R532). -/
def exSw (rt : RegNo) (offset : BitVec 16) (base : RegNo) (s : State) : ExResult := loadStore .sw rt offset base s

/-- SW as one instruction-level step. -/
def execSw (rt : RegNo) (offset : BitVec 16) (base : RegNo) (s : State) : Host.Outcome State Fault Refusal :=
  finish (exSw rt offset base s) s

/-- SD: store (R533). -/
def exSd (rt : RegNo) (offset : BitVec 16) (base : RegNo) (s : State) : ExResult := loadStore .sd rt offset base s

/-- SD as one instruction-level step. -/
def execSd (rt : RegNo) (offset : BitVec 16) (base : RegNo) (s : State) : Host.Outcome State Fault Refusal :=
  finish (exSd rt offset base s) s

/-- SWL: store (R534). -/
def exSwl (rt : RegNo) (offset : BitVec 16) (base : RegNo) (s : State) : ExResult := loadStore .swl rt offset base s

/-- SWL as one instruction-level step. -/
def execSwl (rt : RegNo) (offset : BitVec 16) (base : RegNo) (s : State) : Host.Outcome State Fault Refusal :=
  finish (exSwl rt offset base s) s

/-- SWR: store (R535). -/
def exSwr (rt : RegNo) (offset : BitVec 16) (base : RegNo) (s : State) : ExResult := loadStore .swr rt offset base s

/-- SWR as one instruction-level step. -/
def execSwr (rt : RegNo) (offset : BitVec 16) (base : RegNo) (s : State) : Host.Outcome State Fault Refusal :=
  finish (exSwr rt offset base s) s

/-- SDL: store (R536). -/
def exSdl (rt : RegNo) (offset : BitVec 16) (base : RegNo) (s : State) : ExResult := loadStore .sdl rt offset base s

/-- SDL as one instruction-level step. -/
def execSdl (rt : RegNo) (offset : BitVec 16) (base : RegNo) (s : State) : Host.Outcome State Fault Refusal :=
  finish (exSdl rt offset base s) s

/-- SDR: store (R537). -/
def exSdr (rt : RegNo) (offset : BitVec 16) (base : RegNo) (s : State) : ExResult := loadStore .sdr rt offset base s

/-- SDR as one instruction-level step. -/
def execSdr (rt : RegNo) (offset : BitVec 16) (base : RegNo) (s : State) : Host.Outcome State Fault Refusal :=
  finish (exSdr rt offset base s) s

/-- LL: load linked (R540). -/
def exLl (rt : RegNo) (offset : BitVec 16) (base : RegNo) (s : State) : ExResult := loadStore .ll rt offset base s

/-- LL as one instruction-level step. -/
def execLl (rt : RegNo) (offset : BitVec 16) (base : RegNo) (s : State) : Host.Outcome State Fault Refusal :=
  finish (exLl rt offset base s) s

/-- SC: store conditional (R541). -/
def exSc (rt : RegNo) (offset : BitVec 16) (base : RegNo) (s : State) : ExResult := loadStore .sc rt offset base s

/-- SC as one instruction-level step. -/
def execSc (rt : RegNo) (offset : BitVec 16) (base : RegNo) (s : State) : Host.Outcome State Fault Refusal :=
  finish (exSc rt offset base s) s

/-- LLD: load linked doubleword (R543). -/
def exLld (rt : RegNo) (offset : BitVec 16) (base : RegNo) (s : State) : ExResult := loadStore .lld rt offset base s

/-- LLD as one instruction-level step. -/
def execLld (rt : RegNo) (offset : BitVec 16) (base : RegNo) (s : State) : Host.Outcome State Fault Refusal :=
  finish (exLld rt offset base s) s

/-- SCD: store conditional doubleword (R544). -/
def exScd (rt : RegNo) (offset : BitVec 16) (base : RegNo) (s : State) : ExResult := loadStore .scd rt offset base s

/-- SCD as one instruction-level step. -/
def execScd (rt : RegNo) (offset : BitVec 16) (base : RegNo) (s : State) : Host.Outcome State Fault Refusal :=
  finish (exScd rt offset base s) s

/-- SYNC: no operation (R560). -/
def exSync (s : State) : ExResult := .ok { st := s }

/-- SYNC as one instruction-level step. -/
def execSync (s : State) : Host.Outcome State Fault Refusal :=
  finish (exSync s) s

end Sys2Proof.Machine
end

