-- ==== Sys2Proof/Machine/MulDiv.lean ====
section
/-! DEFINITION. The multiply, divide and HI/LO instructions (41_muldiv.md R400 to R433). Each instruction has its EX stage `ex…`, which
the pipeline runs too, and its instruction-level step `exec…`. -/

namespace Sys2Proof.Machine

/-- Write HI and LO at EX (R400); as the first or second instruction after an MFHI or MFLO this is refused under
`HILO_HAZARD = refuse` (R768, log entry 8). -/
def writeHiLo (hi lo : Word) (s : State) : ExResult :=
  if s.params.hiloHazard = .refuse ∧ s.hz.hiloAge ≤ 2 then .refuse .hiloHazard
  else .ok { st := { s with hi := hi, lo := lo }, immWrite := true }

/-- The halves of a 64-bit word product, each sign-extended (R401, R410). -/
def writeHiLo32 (p : BitVec 64) (s : State) : ExResult :=
  writeHiLo (sext64 (p.extractLsb' 32 32)) (sext64 (p.extractLsb' 0 32)) s

/-- The halves of a 128-bit product (R412). -/
def writeHiLo64 (p : BitVec 128) (s : State) : ExResult :=
  writeHiLo (p.extractLsb' 64 64) (p.extractLsb' 0 64) s

/-- A divide by zero: HI and LO are free values and nothing is raised (R402). -/
def divideByZero (s : State) : ExResult := writeHiLo s.drawn (s.drawnAt 1) (s.drew 2)

/-- The word multiplies and divides refuse an operand that is not sign-extended (R401, R302), before the refusal
of the HI/LO window where both apply (R768): DESIGN CHOICE (log entry 23). -/
def withWords (rs rt : RegNo) (s : State) (k : ExResult) : ExResult :=
  if sx32 (s.readReg rs) && sx32 (s.readReg rt) then k else .refuse .nonSignExtendedWord

/-- MFHI and MFLO: the result through the latches, and the hazard window opens, counted from the instruction's completion
(R430, R768). -/
def readHiLo (rd : RegNo) (v : Word) (s : State) : ExResult :=
  resultFor rd v { s with hz := { s.hz with hiloAge := 0 } }

/-- MULT: signed word product (R410). -/
def exMult (rs : RegNo) (rt : RegNo) (s : State) : ExResult :=
  withWords rs rt s (writeHiLo32 (BitVec.ofInt 64 ((lo32 (s.readReg rs)).toInt * (lo32 (s.readReg rt)).toInt)) s)

/-- MULT as one instruction-level step. -/
def execMult (rs : RegNo) (rt : RegNo) (s : State) : Host.Outcome State Fault Refusal :=
  finish (exMult rs rt s) s

/-- MULTU: unsigned word product (R411). -/
def exMultu (rs : RegNo) (rt : RegNo) (s : State) : ExResult :=
  withWords rs rt s (writeHiLo32 (BitVec.ofNat 64 ((lo32 (s.readReg rs)).toNat * (lo32 (s.readReg rt)).toNat)) s)

/-- MULTU as one instruction-level step. -/
def execMultu (rs : RegNo) (rt : RegNo) (s : State) : Host.Outcome State Fault Refusal :=
  finish (exMultu rs rt s) s

/-- DMULT: signed 128-bit product (R412). -/
def exDmult (rs : RegNo) (rt : RegNo) (s : State) : ExResult :=
  withOps64 s (writeHiLo64 (BitVec.ofInt 128 ((s.readReg rs).toInt * (s.readReg rt).toInt)) s)

/-- DMULT as one instruction-level step. -/
def execDmult (rs : RegNo) (rt : RegNo) (s : State) : Host.Outcome State Fault Refusal :=
  finish (exDmult rs rt s) s

/-- DMULTU: unsigned 128-bit product (R413). -/
def exDmultu (rs : RegNo) (rt : RegNo) (s : State) : ExResult :=
  withOps64 s (writeHiLo64 (BitVec.ofNat 128 ((s.readReg rs).toNat * (s.readReg rt).toNat)) s)

/-- DMULTU as one instruction-level step. -/
def execDmultu (rs : RegNo) (rt : RegNo) (s : State) : Host.Outcome State Fault Refusal :=
  finish (exDmultu rs rt s) s

/-- DIV: signed word quotient and remainder, truncated (R420). -/
def exDiv (rs : RegNo) (rt : RegNo) (s : State) : ExResult :=
  withWords rs rt s
    (if lo32 (s.readReg rt) = 0#32 then divideByZero s
    else
      let n := (lo32 (s.readReg rs)).toInt
      let d := (lo32 (s.readReg rt)).toInt
      writeHiLo (sext64 (BitVec.ofInt 32 (n.tmod d))) (sext64 (BitVec.ofInt 32 (n.tdiv d))) s)

/-- DIV as one instruction-level step. -/
def execDiv (rs : RegNo) (rt : RegNo) (s : State) : Host.Outcome State Fault Refusal :=
  finish (exDiv rs rt s) s

/-- DIVU: unsigned word quotient and remainder (R421). -/
def exDivu (rs : RegNo) (rt : RegNo) (s : State) : ExResult :=
  withWords rs rt s
    (if lo32 (s.readReg rt) = 0#32 then divideByZero s
    else writeHiLo (sext64 (lo32 (s.readReg rs) % lo32 (s.readReg rt))) (sext64 (lo32 (s.readReg rs) / lo32 (s.readReg rt))) s)

/-- DIVU as one instruction-level step. -/
def execDivu (rs : RegNo) (rt : RegNo) (s : State) : Host.Outcome State Fault Refusal :=
  finish (exDivu rs rt s) s

/-- DDIV: signed doubleword quotient and remainder, truncated (R422). -/
def exDdiv (rs : RegNo) (rt : RegNo) (s : State) : ExResult :=
  withOps64 s
    (if s.readReg rt = 0#64 then divideByZero s
    else
      let n := (s.readReg rs).toInt
      let d := (s.readReg rt).toInt
      writeHiLo (BitVec.ofInt 64 (n.tmod d)) (BitVec.ofInt 64 (n.tdiv d)) s)

/-- DDIV as one instruction-level step. -/
def execDdiv (rs : RegNo) (rt : RegNo) (s : State) : Host.Outcome State Fault Refusal :=
  finish (exDdiv rs rt s) s

/-- DDIVU: unsigned doubleword quotient and remainder (R423). -/
def exDdivu (rs : RegNo) (rt : RegNo) (s : State) : ExResult :=
  withOps64 s
    (if s.readReg rt = 0#64 then divideByZero s
    else writeHiLo (s.readReg rs % s.readReg rt) (s.readReg rs / s.readReg rt) s)

/-- DDIVU as one instruction-level step. -/
def execDdivu (rs : RegNo) (rt : RegNo) (s : State) : Host.Outcome State Fault Refusal :=
  finish (exDdivu rs rt s) s

/-- MFHI: read HI (R430). -/
def exMfhi (rd : RegNo) (s : State) : ExResult := readHiLo rd s.hi s

/-- MFHI as one instruction-level step. -/
def execMfhi (rd : RegNo) (s : State) : Host.Outcome State Fault Refusal :=
  finish (exMfhi rd s) s

/-- MFLO: read LO (R431). -/
def exMflo (rd : RegNo) (s : State) : ExResult := readHiLo rd s.lo s

/-- MFLO as one instruction-level step. -/
def execMflo (rd : RegNo) (s : State) : Host.Outcome State Fault Refusal :=
  finish (exMflo rd s) s

/-- MTHI: write HI (R432). -/
def exMthi (rs : RegNo) (s : State) : ExResult := writeHiLo (s.readReg rs) s.lo s

/-- MTHI as one instruction-level step. -/
def execMthi (rs : RegNo) (s : State) : Host.Outcome State Fault Refusal :=
  finish (exMthi rs s) s

/-- MTLO: write LO (R433). -/
def exMtlo (rs : RegNo) (s : State) : ExResult := writeHiLo s.hi (s.readReg rs) s

/-- MTLO as one instruction-level step. -/
def execMtlo (rs : RegNo) (s : State) : Host.Outcome State Fault Refusal :=
  finish (exMtlo rs s) s

end Sys2Proof.Machine
end

