-- ==== Sys2Proof/Machine/Shift.lean ====
section
/-! DEFINITION. The shift instructions (40_alu.md R350 to R364). Each instruction has its EX stage `ex…`, which
the pipeline runs too, and its instruction-level step `exec…`. -/

namespace Sys2Proof.Machine

/-- The amount of a variable word shift, `x[rs][4:0]` (R263). -/
def amount32 (v : Word) : Nat := v.toNat % 32

/-- The amount of a variable doubleword shift, `x[rs][5:0]` (R263). -/
def amount64 (v : Word) : Nat := v.toNat % 64

/-- A right word shift of the value `v`, refused when `v` is not sign-extended (R302); the word result sign-extended. -/
def shiftRight32 (rd : RegNo) (v : Word) (r : Word32) (s : State) : ExResult :=
  if sx32 v then resultFor rd (sext64 r) s else .refuse .nonSignExtendedWord

/-- SLL: any operand (R350). -/
def exSll (rd : RegNo) (rt : RegNo) (sa : BitVec 5) (s : State) : ExResult :=
  resultFor rd (sext64 (lo32 (s.readReg rt) <<< sa.toNat)) s

/-- SLL as one instruction-level step. -/
def execSll (rd : RegNo) (rt : RegNo) (sa : BitVec 5) (s : State) : Host.Outcome State Fault Refusal :=
  finish (exSll rd rt sa s) s

/-- SRL: logical right (R351). -/
def exSrl (rd : RegNo) (rt : RegNo) (sa : BitVec 5) (s : State) : ExResult :=
  shiftRight32 rd (s.readReg rt) (lo32 (s.readReg rt) >>> sa.toNat) s

/-- SRL as one instruction-level step. -/
def execSrl (rd : RegNo) (rt : RegNo) (sa : BitVec 5) (s : State) : Host.Outcome State Fault Refusal :=
  finish (exSrl rd rt sa s) s

/-- SRA: arithmetic right (R352). -/
def exSra (rd : RegNo) (rt : RegNo) (sa : BitVec 5) (s : State) : ExResult :=
  shiftRight32 rd (s.readReg rt) ((lo32 (s.readReg rt)).sshiftRight sa.toNat) s

/-- SRA as one instruction-level step. -/
def execSra (rd : RegNo) (rt : RegNo) (sa : BitVec 5) (s : State) : Host.Outcome State Fault Refusal :=
  finish (exSra rd rt sa s) s

/-- DSLL: doubleword shift (R356). -/
def exDsll (rd : RegNo) (rt : RegNo) (sa : BitVec 5) (s : State) : ExResult :=
  withOps64 s (resultFor rd (s.readReg rt <<< sa.toNat) s)

/-- DSLL as one instruction-level step. -/
def execDsll (rd : RegNo) (rt : RegNo) (sa : BitVec 5) (s : State) : Host.Outcome State Fault Refusal :=
  finish (exDsll rd rt sa s) s

/-- DSRL: doubleword shift (R357). -/
def exDsrl (rd : RegNo) (rt : RegNo) (sa : BitVec 5) (s : State) : ExResult :=
  withOps64 s (resultFor rd (s.readReg rt >>> sa.toNat) s)

/-- DSRL as one instruction-level step. -/
def execDsrl (rd : RegNo) (rt : RegNo) (sa : BitVec 5) (s : State) : Host.Outcome State Fault Refusal :=
  finish (exDsrl rd rt sa s) s

/-- DSRA: doubleword shift (R358). -/
def exDsra (rd : RegNo) (rt : RegNo) (sa : BitVec 5) (s : State) : ExResult :=
  withOps64 s (resultFor rd ((s.readReg rt).sshiftRight sa.toNat) s)

/-- DSRA as one instruction-level step. -/
def execDsra (rd : RegNo) (rt : RegNo) (sa : BitVec 5) (s : State) : Host.Outcome State Fault Refusal :=
  finish (exDsra rd rt sa s) s

/-- DSLL32: doubleword shift (R359). -/
def exDsll32 (rd : RegNo) (rt : RegNo) (sa : BitVec 5) (s : State) : ExResult :=
  withOps64 s (resultFor rd (s.readReg rt <<< (sa.toNat + 32)) s)

/-- DSLL32 as one instruction-level step. -/
def execDsll32 (rd : RegNo) (rt : RegNo) (sa : BitVec 5) (s : State) : Host.Outcome State Fault Refusal :=
  finish (exDsll32 rd rt sa s) s

/-- DSRL32: doubleword shift (R360). -/
def exDsrl32 (rd : RegNo) (rt : RegNo) (sa : BitVec 5) (s : State) : ExResult :=
  withOps64 s (resultFor rd (s.readReg rt >>> (sa.toNat + 32)) s)

/-- DSRL32 as one instruction-level step. -/
def execDsrl32 (rd : RegNo) (rt : RegNo) (sa : BitVec 5) (s : State) : Host.Outcome State Fault Refusal :=
  finish (exDsrl32 rd rt sa s) s

/-- DSRA32: doubleword shift (R361). -/
def exDsra32 (rd : RegNo) (rt : RegNo) (sa : BitVec 5) (s : State) : ExResult :=
  withOps64 s (resultFor rd ((s.readReg rt).sshiftRight (sa.toNat + 32)) s)

/-- DSRA32 as one instruction-level step. -/
def execDsra32 (rd : RegNo) (rt : RegNo) (sa : BitVec 5) (s : State) : Host.Outcome State Fault Refusal :=
  finish (exDsra32 rd rt sa s) s

/-- SLLV: any operand (R353). -/
def exSllv (rd : RegNo) (rt : RegNo) (rs : RegNo) (s : State) : ExResult :=
  resultFor rd (sext64 (lo32 (s.readReg rt) <<< amount32 (s.readReg rs))) s

/-- SLLV as one instruction-level step. -/
def execSllv (rd : RegNo) (rt : RegNo) (rs : RegNo) (s : State) : Host.Outcome State Fault Refusal :=
  finish (exSllv rd rt rs s) s

/-- SRLV: logical right by `x[rs][4:0]` (R354). -/
def exSrlv (rd : RegNo) (rt : RegNo) (rs : RegNo) (s : State) : ExResult :=
  shiftRight32 rd (s.readReg rt) (lo32 (s.readReg rt) >>> amount32 (s.readReg rs)) s

/-- SRLV as one instruction-level step. -/
def execSrlv (rd : RegNo) (rt : RegNo) (rs : RegNo) (s : State) : Host.Outcome State Fault Refusal :=
  finish (exSrlv rd rt rs s) s

/-- SRAV: arithmetic right by `x[rs][4:0]` (R355). -/
def exSrav (rd : RegNo) (rt : RegNo) (rs : RegNo) (s : State) : ExResult :=
  shiftRight32 rd (s.readReg rt) ((lo32 (s.readReg rt)).sshiftRight (amount32 (s.readReg rs))) s

/-- SRAV as one instruction-level step. -/
def execSrav (rd : RegNo) (rt : RegNo) (rs : RegNo) (s : State) : Host.Outcome State Fault Refusal :=
  finish (exSrav rd rt rs s) s

/-- DSLLV: doubleword shift (R362). -/
def exDsllv (rd : RegNo) (rt : RegNo) (rs : RegNo) (s : State) : ExResult :=
  withOps64 s (resultFor rd (s.readReg rt <<< amount64 (s.readReg rs)) s)

/-- DSLLV as one instruction-level step. -/
def execDsllv (rd : RegNo) (rt : RegNo) (rs : RegNo) (s : State) : Host.Outcome State Fault Refusal :=
  finish (exDsllv rd rt rs s) s

/-- DSRLV: doubleword shift (R363). -/
def exDsrlv (rd : RegNo) (rt : RegNo) (rs : RegNo) (s : State) : ExResult :=
  withOps64 s (resultFor rd (s.readReg rt >>> amount64 (s.readReg rs)) s)

/-- DSRLV as one instruction-level step. -/
def execDsrlv (rd : RegNo) (rt : RegNo) (rs : RegNo) (s : State) : Host.Outcome State Fault Refusal :=
  finish (exDsrlv rd rt rs s) s

/-- DSRAV: doubleword shift (R364). -/
def exDsrav (rd : RegNo) (rt : RegNo) (rs : RegNo) (s : State) : ExResult :=
  withOps64 s (resultFor rd ((s.readReg rt).sshiftRight (amount64 (s.readReg rs))) s)

/-- DSRAV as one instruction-level step. -/
def execDsrav (rd : RegNo) (rt : RegNo) (rs : RegNo) (s : State) : Host.Outcome State Fault Refusal :=
  finish (exDsrav rd rt rs s) s

end Sys2Proof.Machine
end

