-- ==== Sys2Proof/Machine/System.lean ====
section
/-! DEFINITION. The CP0 moves, ERET, SYSCALL and BREAK (44_system.md R570 to R606). Each instruction has its EX stage `ex…`, which
the pipeline runs too, and its instruction-level step `exec…`. -/

namespace Sys2Proof.Machine

/-- Whether CP0 register `n` is one of the 64-bit registers (R60). -/
def cp0Is64 (n : RegNo) : Bool :=
  match n with
  | 2#5 | 3#5 | 4#5 | 8#5 | 10#5 | 14#5 | 20#5 | 30#5 => true
  | _ => false

/-- Whether CP0 register `n` is reserved (R60, R89): the table gives it no width. -/
def cp0Reserved (n : RegNo) : Bool :=
  match n with
  | 7#5 | 21#5 | 22#5 | 23#5 | 24#5 | 25#5 | 31#5 => true
  | _ => false

/-- EntryLo as a read gives it: bits 29:26 as written or 0, by a draw (R64). -/
def entryLoRead (lo d : Word) : Word := if d.getLsbD 0 then lo else lo &&& ~~~0x3C000000#64

/-- Random as a read gives it (R204). -/
def randomRead (s : State) : Word :=
  match s.params.randomPolicy with
  | .draw => (drawSlot s.cp0.wired s.drawn).setWidth 64
  | .onTlbwr | .perCycle => s.cp0.random.setWidth 64

/-- `CP0Read(n)` (R575): the register's value, a 32-bit register in the low half; a reserved register reads as a free
value (R89), PRId as its parameter (R76), CacheErr as 0 (R85). -/
def cp0Read (n : RegNo) (s : State) : Word :=
  match n with
  | 0#5 => s.cp0.index.setWidth 64
  | 1#5 => randomRead s
  | 2#5 => entryLoRead s.cp0.entryLo0 s.drawn
  | 3#5 => entryLoRead s.cp0.entryLo1 s.drawn
  | 4#5 => s.cp0.context
  | 5#5 => s.cp0.pageMask.setWidth 64
  | 6#5 => s.cp0.wired.setWidth 64
  | 8#5 => s.cp0.badVAddr
  | 9#5 => s.cp0.count.setWidth 64
  | 10#5 => s.cp0.entryHi
  | 11#5 => s.cp0.compare.setWidth 64
  | 12#5 => s.cp0.status.setWidth 64
  | 13#5 => s.cp0.cause.setWidth 64
  | 14#5 => s.cp0.epc
  | 15#5 => s.params.prid.setWidth 64
  | 16#5 => s.cp0.config.setWidth 64
  | 17#5 => s.cp0.llAddr.setWidth 64
  | 18#5 => s.cp0.watchLo.setWidth 64
  | 19#5 => s.cp0.watchHi.setWidth 64
  | 20#5 => s.cp0.xcontext
  | 26#5 => s.cp0.parityError.setWidth 64
  | 27#5 => 0#64
  | 28#5 => s.cp0.tagLo.setWidth 64
  | 29#5 => s.cp0.tagHi.setWidth 64
  | 30#5 => s.cp0.errorEpc
  | _ => s.drawn

/-- The `RW` bits of a 32-bit register taken from `v`, the others kept (R55, R577). -/
def masked32 (mask old v : Word32) : Word32 := (old &&& ~~~mask) ||| (v &&& mask)

/-- The `RW` bits of a 64-bit register taken from `v`, the others kept (R55, R577). -/
def masked64 (mask old v : Word) : Word := (old &&& ~~~mask) ||| (v &&& mask)

/-- `CP0Write(n, v)` on the registers (R577), with the write masks of 10_state.md and the side effects of R579 on Random
(R66) and Cause.IP7 (R71). A read-only or reserved register keeps its value (R89). -/
def cp0WriteRegs (n : RegNo) (v : Word) (c : Cp0) : Cp0 :=
  match n with
  | 0#5 => { c with index := masked32 0x0000003F#32 c.index (lo32 v) }
  | 2#5 => { c with entryLo0 := masked64 0x000000003FFFFFFF#64 c.entryLo0 v }
  | 3#5 => { c with entryLo1 := masked64 0x000000003FFFFFFF#64 c.entryLo1 v }
  | 4#5 => { c with context := masked64 0xFFFFFFFFFF800000#64 c.context v }
  | 5#5 => { c with pageMask := masked32 0x01FFE000#32 c.pageMask (lo32 v) }
  | 6#5 => { c with wired := masked32 0x0000003F#32 c.wired (lo32 v), random := 31#32 }
  | 9#5 => { c with count := lo32 v }
  | 10#5 => { c with entryHi := masked64 0xC00000FFFFFFE0FF#64 c.entryHi v }
  | 11#5 => { c with compare := lo32 v, cause := c.cause &&& ~~~0x00008000#32 }
  | 12#5 => { c with status := masked32 0xFF57FFFF#32 c.status (lo32 v) }
  | 13#5 => { c with cause := masked32 0x00000300#32 c.cause (lo32 v) }
  | 14#5 => { c with epc := v }
  | 16#5 => { c with config := masked32 0x0F00800F#32 c.config (lo32 v) }
  | 17#5 => { c with llAddr := lo32 v }
  | 18#5 => { c with watchLo := masked32 0xFFFFFFFB#32 c.watchLo (lo32 v) }
  | 19#5 => { c with watchHi := masked32 0x0000000F#32 c.watchHi (lo32 v) }
  | 20#5 => { c with xcontext := masked64 0xFFFFFFFE00000000#64 c.xcontext v }
  | 26#5 => { c with parityError := masked32 0x000000FF#32 c.parityError (lo32 v) }
  | 28#5 => { c with tagLo := masked32 0x0FFFFFC0#32 c.tagLo (lo32 v) }
  | 29#5 => { c with tagHi := lo32 v }
  | 30#5 => { c with errorEpc := v }
  | _ => c

/-- The registers whose write can change a translation (R800): Wired, EntryHi, Status, Config. -/
def cp0Translates (n : RegNo) : Bool :=
  match n with
  | 6#5 | 10#5 | 12#5 | 16#5 => true
  | _ => false

/-- MFC0 and DMFC0 (R575, R576): a 64-bit register whole for DMFC0, else `sext_64(v[31:0])`. A reserved register, whose
width R60 leaves out, gives DMFC0 the whole 64-bit free value of R89: DESIGN CHOICE (log entry 24). One free value is set
aside for the registers that read as one. -/
def moveFromCp0 (wide : Bool) (rt n : RegNo) (s : State) : ExResult :=
  let v := cp0Read n s
  resultFor rt (if wide && (cp0Is64 n || cp0Reserved n) then v else sext64 (lo32 v)) (s.drew 1)

/-- MTC0 and DMTC0 (R577, R578), with the hazard window of a write that can change a translation (R800). A write of Status
or Config invalidates the cached segment (R800). It counts as an immediate write (R673, R691) for every register, a reserved or
read-only one, whose write is ignored (R89), among them: DESIGN CHOICE (log entry 26). -/
def moveToCp0 (n : RegNo) (v : Word) (s : State) : ExResult :=
  let s1 : State := { s with cp0 := cp0WriteRegs n v s.cp0 }
  let s2 : State := if n = 12#5 ∨ n = 16#5 then { s1 with activeSeg := .sentinel } else s1
  .ok { st := if cp0Translates n then s2.noteCp0Write s else s2, immWrite := true }

/-- MFC0: move from CP0 (R575). -/
def exMfc0 (rt : RegNo) (rd : RegNo) (s : State) : ExResult := withCp0 s (moveFromCp0 false rt rd s)

/-- MFC0 as one instruction-level step. -/
def execMfc0 (rt : RegNo) (rd : RegNo) (s : State) : Host.Outcome State Fault Refusal :=
  finish (exMfc0 rt rd s) s

/-- DMFC0: doubleword move from CP0 (R576). -/
def exDmfc0 (rt : RegNo) (rd : RegNo) (s : State) : ExResult := withCp0 s (withOps64 s (moveFromCp0 true rt rd s))

/-- DMFC0 as one instruction-level step. -/
def execDmfc0 (rt : RegNo) (rd : RegNo) (s : State) : Host.Outcome State Fault Refusal :=
  finish (exDmfc0 rt rd s) s

/-- MTC0: move to CP0 (R577). -/
def exMtc0 (rt : RegNo) (rd : RegNo) (s : State) : ExResult :=
  withCp0 s (moveToCp0 rd (sext64 (lo32 (s.readReg rt))) s)

/-- MTC0 as one instruction-level step. -/
def execMtc0 (rt : RegNo) (rd : RegNo) (s : State) : Host.Outcome State Fault Refusal :=
  finish (exMtc0 rt rd s) s

/-- DMTC0: doubleword move to CP0 (R578). -/
def exDmtc0 (rt : RegNo) (rd : RegNo) (s : State) : ExResult :=
  withCp0 s (withOps64 s (moveToCp0 rd (s.readReg rt) s))

/-- DMTC0 as one instruction-level step. -/
def execDmtc0 (rt : RegNo) (rd : RegNo) (s : State) : Host.Outcome State Fault Refusal :=
  finish (exDmtc0 rt rd s) s

/-- ERET: return from exception (R600). -/
def exEret (s : State) : ExResult := withCp0 s (eretOut s)

/-- ERET as one instruction-level step. -/
def execEret (s : State) : Host.Outcome State Fault Refusal :=
  finish (exEret s) s

/-- SYSCALL: system call; the code is not interpreted (R273) (R605). -/
def exSyscall (_code : BitVec 20) (s : State) : ExResult := .raise .syscall s

/-- SYSCALL as one instruction-level step. -/
def execSyscall (code : BitVec 20) (s : State) : Host.Outcome State Fault Refusal :=
  finish (exSyscall code s) s

/-- BREAK: breakpoint; the code is not interpreted (R273) (R606). -/
def exBreak (_code : BitVec 20) (s : State) : ExResult := .raise .breakpoint s

/-- BREAK as one instruction-level step. -/
def execBreak (code : BitVec 20) (s : State) : Host.Outcome State Fault Refusal :=
  finish (exBreak code s) s

end Sys2Proof.Machine
end

