-- ==== Sys2Proof/Machine/Tlb.lean ====
section
/-! DEFINITION. The TLB instructions (44_system.md R593 to R596, 20_memory.md R190 to R204). Each instruction has its EX stage `ex…`, which
the pipeline runs too, and its instruction-level step `exec…`. -/

namespace Sys2Proof.Machine

/-- Index.Index (R61). -/
def indexField (c : Cp0) : Nat := c.index.toNat % 64

/-- TLBR (R593). -/
def tlbReadOut (s : State) : ExResult :=
  match s.tlb[indexField s.cp0]? with
  | some e => .ok { st := s.tlbRead e, immWrite := true }
  | none => .refuse .tlbIndexOutOfRange

/-- TLBWI (R594); no effect with `REFERENCE_NOOP_QUIRKS` (R572). -/
def tlbWriteIndexed (s : State) : ExResult :=
  if s.params.noopQuirks then .ok { st := s }
  else if indexField s.cp0 < 32 then
    .ok { st := (s.tlbWrite (indexField s.cp0) (tlbEntryFromCp0 s.cp0)).noteCp0Write s, immWrite := true }
  else .refuse .tlbIndexOutOfRange

/-- The slot TLBWR writes (R204, R595). -/
def randomSlot (s : State) : Nat :=
  match s.params.randomPolicy with
  | .draw => (drawSlot s.cp0.wired s.drawn).toNat
  | .onTlbwr | .perCycle => s.cp0.random.toNat % 64

/-- Random after a TLBWR (R204): the countdown under `on_tlbwr`, a free value of Wired..31 under `draw`; under `per_cycle`
TLBWR leaves it, since there it moves with every instruction (log entry 16). -/
def randomAfterTlbwr (s : State) : Word32 :=
  match s.params.randomPolicy with
  | .onTlbwr => randomNext s.cp0
  | .perCycle => s.cp0.random
  | .draw => (drawSlot s.cp0.wired (s.drawnAt 1)).setWidth 32

/-- TLBWR (R595). -/
def tlbWriteRandom (s : State) : ExResult :=
  if 31 < s.cp0.wired.toNat then .refuse .illegalWired
  else
    let s1 : State := { (s.tlbWrite (randomSlot s) (tlbEntryFromCp0 s.cp0)).drew 2 with
      cp0 := { s.cp0 with random := randomAfterTlbwr s } }
    .ok { st := s1.noteCp0Write s, immWrite := true }

/-- TLBP (R197, R596): on a miss P is 1 and Index.Index a free value. -/
def tlbProbeOut (s : State) : ExResult :=
  let c := s.cp0
  match tlbPick s.params.tlbMultimatch s.recency
      (tlbMatches s.tlb (vaVpn2 c.entryHi) (vaRegion c.entryHi) (ehAsid c.entryHi)) with
  | .hit i => .ok { st := { s with cp0 := { c with index := BitVec.ofNat 32 i } }, immWrite := true }
  | .miss =>
    .ok { st := { s.drew 1 with cp0 := { c with index := 1#1 ++ 0#25 ++ s.drawn.setWidth 6 } }, immWrite := true }
  | .multiple => .refuse .tlbMultipleMatch

/-- TLBR: read the indexed TLB entry (R593). -/
def exTlbr (s : State) : ExResult := withCp0 s (tlbReadOut s)

/-- TLBR as one instruction-level step. -/
def execTlbr (s : State) : Host.Outcome State Fault Refusal :=
  finish (exTlbr s) s

/-- TLBWI: write the indexed TLB entry (R594). -/
def exTlbwi (s : State) : ExResult := withCp0 s (tlbWriteIndexed s)

/-- TLBWI as one instruction-level step. -/
def execTlbwi (s : State) : Host.Outcome State Fault Refusal :=
  finish (exTlbwi s) s

/-- TLBWR: write a random TLB entry (R595). -/
def exTlbwr (s : State) : ExResult := withCp0 s (tlbWriteRandom s)

/-- TLBWR as one instruction-level step. -/
def execTlbwr (s : State) : Host.Outcome State Fault Refusal :=
  finish (exTlbwr s) s

/-- TLBP: probe the TLB (R596). -/
def exTlbp (s : State) : ExResult := withCp0 s (tlbProbeOut s)

/-- TLBP as one instruction-level step. -/
def execTlbp (s : State) : Host.Outcome State Fault Refusal :=
  finish (exTlbp s) s

end Sys2Proof.Machine
end

