-- ==== Sys2Proof/Machine/Trap.lean ====
section
/-! DEFINITION. The conditional traps (44_system.md R607 to R619). Each instruction has its EX stage `ex…`, which
the pipeline runs too, and its instruction-level step `exec…`. -/

namespace Sys2Proof.Machine

/-- Trap when the condition holds, else no effect (R607). -/
def trapIf (c : Bool) (s : State) : ExResult := if c then .raise .trap s else .ok { st := s }

/-- TGE: trap on a register comparison (R608). -/
def exTge (rs : RegNo) (rt : RegNo) (_code : BitVec 10) (s : State) : ExResult :=
  trapIf (!(s.readReg rs).slt (s.readReg rt)) s

/-- TGE as one instruction-level step. -/
def execTge (rs : RegNo) (rt : RegNo) (code : BitVec 10) (s : State) : Host.Outcome State Fault Refusal :=
  finish (exTge rs rt code s) s

/-- TGEU: trap on a register comparison (R609). -/
def exTgeu (rs : RegNo) (rt : RegNo) (_code : BitVec 10) (s : State) : ExResult :=
  trapIf (!(s.readReg rs).ult (s.readReg rt)) s

/-- TGEU as one instruction-level step. -/
def execTgeu (rs : RegNo) (rt : RegNo) (code : BitVec 10) (s : State) : Host.Outcome State Fault Refusal :=
  finish (exTgeu rs rt code s) s

/-- TLT: trap on a register comparison (R610). -/
def exTlt (rs : RegNo) (rt : RegNo) (_code : BitVec 10) (s : State) : ExResult :=
  trapIf ((s.readReg rs).slt (s.readReg rt)) s

/-- TLT as one instruction-level step. -/
def execTlt (rs : RegNo) (rt : RegNo) (code : BitVec 10) (s : State) : Host.Outcome State Fault Refusal :=
  finish (exTlt rs rt code s) s

/-- TLTU: trap on a register comparison (R611). -/
def exTltu (rs : RegNo) (rt : RegNo) (_code : BitVec 10) (s : State) : ExResult :=
  trapIf ((s.readReg rs).ult (s.readReg rt)) s

/-- TLTU as one instruction-level step. -/
def execTltu (rs : RegNo) (rt : RegNo) (code : BitVec 10) (s : State) : Host.Outcome State Fault Refusal :=
  finish (exTltu rs rt code s) s

/-- TEQ: trap on a register comparison (R612). -/
def exTeq (rs : RegNo) (rt : RegNo) (_code : BitVec 10) (s : State) : ExResult :=
  trapIf (s.readReg rs == s.readReg rt) s

/-- TEQ as one instruction-level step. -/
def execTeq (rs : RegNo) (rt : RegNo) (code : BitVec 10) (s : State) : Host.Outcome State Fault Refusal :=
  finish (exTeq rs rt code s) s

/-- TNE: trap on a register comparison (R613). -/
def exTne (rs : RegNo) (rt : RegNo) (_code : BitVec 10) (s : State) : ExResult :=
  trapIf (s.readReg rs != s.readReg rt) s

/-- TNE as one instruction-level step. -/
def execTne (rs : RegNo) (rt : RegNo) (code : BitVec 10) (s : State) : Host.Outcome State Fault Refusal :=
  finish (exTne rs rt code s) s

/-- TGEI: trap on a comparison with the sign-extended immediate (R614). -/
def exTgei (rs : RegNo) (imm : BitVec 16) (s : State) : ExResult := trapIf (!(s.readReg rs).slt (sextImm imm)) s

/-- TGEI as one instruction-level step. -/
def execTgei (rs : RegNo) (imm : BitVec 16) (s : State) : Host.Outcome State Fault Refusal :=
  finish (exTgei rs imm s) s

/-- TGEIU: trap on a comparison with the sign-extended immediate (R615). -/
def exTgeiu (rs : RegNo) (imm : BitVec 16) (s : State) : ExResult := trapIf (!(s.readReg rs).ult (sextImm imm)) s

/-- TGEIU as one instruction-level step. -/
def execTgeiu (rs : RegNo) (imm : BitVec 16) (s : State) : Host.Outcome State Fault Refusal :=
  finish (exTgeiu rs imm s) s

/-- TLTI: trap on a comparison with the sign-extended immediate (R616). -/
def exTlti (rs : RegNo) (imm : BitVec 16) (s : State) : ExResult := trapIf ((s.readReg rs).slt (sextImm imm)) s

/-- TLTI as one instruction-level step. -/
def execTlti (rs : RegNo) (imm : BitVec 16) (s : State) : Host.Outcome State Fault Refusal :=
  finish (exTlti rs imm s) s

/-- TLTIU: trap on a comparison with the sign-extended immediate (R617). -/
def exTltiu (rs : RegNo) (imm : BitVec 16) (s : State) : ExResult := trapIf ((s.readReg rs).ult (sextImm imm)) s

/-- TLTIU as one instruction-level step. -/
def execTltiu (rs : RegNo) (imm : BitVec 16) (s : State) : Host.Outcome State Fault Refusal :=
  finish (exTltiu rs imm s) s

/-- TEQI: trap on a comparison with the sign-extended immediate (R618). -/
def exTeqi (rs : RegNo) (imm : BitVec 16) (s : State) : ExResult := trapIf (s.readReg rs == sextImm imm) s

/-- TEQI as one instruction-level step. -/
def execTeqi (rs : RegNo) (imm : BitVec 16) (s : State) : Host.Outcome State Fault Refusal :=
  finish (exTeqi rs imm s) s

/-- TNEI: trap on a comparison with the sign-extended immediate (R619). -/
def exTnei (rs : RegNo) (imm : BitVec 16) (s : State) : ExResult := trapIf (s.readReg rs != sextImm imm) s

/-- TNEI as one instruction-level step. -/
def execTnei (rs : RegNo) (imm : BitVec 16) (s : State) : Host.Outcome State Fault Refusal :=
  finish (exTnei rs imm s) s

end Sys2Proof.Machine
end

