-- ==== Sys2Proof/Machine/Fetch.lean ====
section
/-! DEFINITION. What happens around an instruction at instruction level: the inputs and the timer between two instructions
(R18, R690 to R701, R810), the fetch with its exceptions and refusals (R170, R227, R232, R252, R666, R800), the ageing of
the hazard windows, and placing a word where the next fetch finds it. -/

namespace Sys2Proof.Machine

/-! ## Inputs and the timer -/

/-- The external invalidate-hit requests made before this step or cycle. -/
def invalidatesNow (s : State) : List (Word × PAddr) := s.inputs.inval.headD []

/-- Perform the external invalidate-hit requests made before this step or cycle (R224, R810). -/
def State.externalInvalidates (s : State) : State :=
  { (invalidatesNow s).foldl (fun t (va, pa) => t.icInvalidateHit va pa) s with
    inputs := { s.inputs with inval := s.inputs.inval.tail } }

/-- How far Count is from taking the value of Compare by incrementing (R701): a whole turn when they are equal now. -/
def countDistance (c : Cp0) : Nat :=
  let d := (c.compare - c.count).toNat
  if d = 0 then 2 ^ 32 else d

/-- Count after it advanced by `n`, with Cause.IP7 set when it passed through Compare (R700, R701). -/
def countAdvance (n : Nat) (c : Cp0) : Cp0 :=
  { c with
    count := c.count + BitVec.ofNat 32 n
    cause := if countDistance c ≤ n then c.cause ||| 0x00008000#32 else c.cause }

/-- Cause with IP6..IP2 at the levels of the lines (R690). -/
def setLines (lines : BitVec 5) (cause : Word32) : Word32 :=
  (cause &&& ~~~0x00007C00#32) ||| (lines.setWidth 32 <<< 10)

/-- The levels of Int[4:0] now: the next input, or a free value when none is given (R692). -/
def linesNow (s : State) : BitVec 5 :=
  match s.inputs.extInt with
  | [] => (s.drawnAt 1).setWidth 5
  | l :: _ => l

/-- The inputs one step or cycle later: the levels of the lines used, the bus's time one further. -/
def Inputs.tick (inp : Inputs) : Inputs := { inp with extInt := inp.extInt.tail, busTime := inp.busTime + 1 }

/-- Random between two instructions at instruction level: under `per_cycle` it moves with every instruction completed, and
is a free value of Wired..31 here (R18, R204, log entry 16). Under `draw` the stored value stays, the draw being made at each
read: DESIGN CHOICE (log entry 16). -/
def randomNow (s : State) : Word32 :=
  if s.params.randomPolicy = .perCycle then (drawSlot s.cp0.wired (s.drawnAt 2)).setWidth 32 else s.cp0.random

/-- What changes between two instructions at instruction level: Count by a free amount (R18, R700), Cause.IP7,
Cause.IP6..IP2, and Random under `per_cycle`. -/
def State.tick (s : State) : State :=
  let c := countAdvance s.drawn.toNat s.cp0
  { s with
    cp0 := { c with cause := setLines (linesNow s) c.cause, random := randomNow s }
    inputs := s.inputs.tick
    draws := s.draws + 3 }

/-- The state an instruction-level step begins with. -/
def beginStep (s : State) : State := s.externalInvalidates.tick

/-! ## Fetch -/

/-- The outcome of a fetch. -/
inductive FetchResult where
  | stop (r : Refusal)
  | raise (e : Exc)
  | word (w : Word32) (st : State)
deriving DecidableEq, Repr

/-- A fetched word that one of the two instructions before it stores to (R252). -/
def storeHazardAt (hz : Hazards) (pa : PAddr) : Bool :=
  hz.stores.any (fun h => decide (h.addr < pa.toNat + 4) && decide (pa.toNat < h.addr + h.size))

/-- The word of an uncached fetch (R227, R232). -/
def fetchUncached (pa : PAddr) (s : State) : FetchResult :=
  if anyLine s.dDirty pa.toNat 4 then .stop .fetchOfDirtyLine
  else if busErrorAt s.inputs .read pa.toNat 4 then .raise .fetchBusError
  else .word (BitVec.ofNat 32 (s.busRead pa.toNat 4)) (s.afterRead pa.toNat 4)

/-- The word of a cached fetch: from the hit line, or after a refill (R227, R232). A CACHE just before does not affect it
(R627). -/
def fetchCached (va : Word) (pa : PAddr) (s : State) : FetchResult :=
  match s.fetchProbe va pa with
  | some l => .word (l.word pa) s
  | none =>
    if anyLine s.dDirty (lineBase pa) 32 then .stop .fetchOfDirtyLine
    else if busErrorAt s.inputs .read (lineBase pa) 32 then .raise .fetchBusError
    else
      let s' := s.icFill va pa
      .word ((s'.icLine va).word pa) s'

/-- What refuses the fetch of a translated address: an open window of R800, the byte order (R140, R141), then a store just
before (R252), which comes before the refusal of a dirty line (R232): DESIGN CHOICE (log entry 13). -/
def fetchRefusal (s : State) (pa : PAddr) : Option Refusal :=
  if cp0HazardAt s.hz s.pc then some .cp0Hazard
  else
    match endianRefusal s.cp0 with
    | some r => some r
    | none => if storeHazardAt s.hz pa then some .storeToFetched else none

/-- The fetch of the word at the pc: address error, then the translation and the hazards, then the bus (R666 ranks 1 to 3).
A misaligned pc comes before what the translation itself refuses, that before the window of R800 (R160, R170, R577, log entry
13). The resolved segment becomes
the active one (R159). -/
def fetch (s : State) : FetchResult :=
  let va := s.pc
  if va.extractLsb' 0 2 ≠ 0#2 then .raise (.addrError .fetch va)
  else
    match translate s.transCtx va .fetch with
    | .stop r => .stop r
    | .raise e => if cp0HazardAt s.hz va then .stop .cp0Hazard else .raise e
    | .ok seg pa cached =>
      match fetchRefusal s pa with
      | some r => .stop r
      | none =>
        let s' : State := { s with activeSeg := seg }
        if cached then fetchCached va pa s' else fetchUncached pa s'

/-! ## Ageing of the hazard windows -/

/-- One instruction fewer of a hazard window. -/
def ageCp0 (l : List Cp0Hazard) : List Cp0Hazard :=
  (l.filter (fun h => 1 < h.left)).map (fun h => { h with left := h.left - 1 })

/-- One instruction fewer of the store windows. -/
def ageStores (l : List RecentStore) : List RecentStore :=
  (l.filter (fun h => 1 < h.left)).map (fun h => { h with left := h.left - 1 })

/-- The state in which the fetched instruction runs: every window of fetches one instruction older (R252, R627, R800). -/
def State.age (s : State) : State :=
  { s with hz := { s.hz with cp0 := ageCp0 s.hz.cp0, stores := ageStores s.hz.stores, icBefore := none } }

/-- Whether the instruction at the pc is a killed delay slot (R443, R444). -/
def State.killed (s : State) : Bool :=
  match s.delay with
  | some d => d.killed
  | none => false

/-- The word that executes: `iw & iw_mask`, 0 for a killed slot (R444). -/
def State.maskWord (s : State) (w : Word32) : Word32 := if s.killed then 0#32 else w

/-! ## Placing a word -/

/-- Lay a word down at a physical address so that a fetch of `va` there reads it: the memory bytes, the cache line of `va`
not valid, its lines not dirty in the data cache, plain memory behind the bus. -/
def placeWord (s : State) (va : Word) (pa : PAddr) (w : Word32) : State :=
  let s' := s.icInvalidate va
  { s' with
    mem := writeBE s.mem pa.toNat 4 w.toNat
    dDirty := s.dDirty.filter (fun l => !anyLine [l] (lineBase pa) 32)
    hz := { s.hz with cp0 := [], stores := [], icBefore := none }
    inputs := { s.inputs with
      busMap := s.inputs.busMap.filter (fun r => !(decide (r.base < lineBase pa + 32) && decide (lineBase pa < r.base + r.size))) }
    delay := s.delay.map (fun d => { d with killed := false }) }

/-- The state with a word where the next fetch finds it; unchanged where the pc has no translation. -/
def placeFetchWord (s : State) (w : Word32) : State :=
  match translate s.transCtx s.pc .fetch with
  | .ok _ pa _ => placeWord s s.pc pa w
  | .stop _ => s
  | .raise _ => s

end Sys2Proof.Machine
end

