-- ==== Sys2Proof/Machine/Step.lean ====
section
/-! DEFINITION. One instruction-level step (R823): reset first (R730), then the inputs and the timer, the fetch, the
interrupt check, the decoder and the instruction's meaning, in the order of R666. -/

namespace Sys2Proof.Machine

/-- The meaning of a class of word (R276): an instruction, a reserved word (R271), a must-be-zero violation (R272), which is
refused before any CpU or RI of the row it matches (R570, R275): DESIGN CHOICE (log entry 23). -/
def execDecoded (d : Decoded) (s : State) : Host.Outcome State Fault Refusal :=
  match d with
  | .instr i => exec i s
  | .reserved cop0 => finish (reservedOut cop0 s) s
  | .mustBeZero => .refused .mustBeZero

/-- What follows a fetched word: an enabled pending interrupt is taken before the instruction (R691), which else runs. -/
def runWord (w : Word32) (s : State) : Host.Outcome State Fault Refusal :=
  if intPending s.cp0 then .next (takeException .int s)
  else execDecoded (decode (s.maskWord w)) s.age

/-- One step of the machine out of reset: the fetch's exceptions come before the interrupt and the instruction (R666). -/
def runStep (s : State) : Host.Outcome State Fault Refusal :=
  match fetch s with
  | .stop r => .refused r
  | .raise e => .next (takeException e s)
  | .word w st => runWord w st

/-- One instruction-level step; with the cold-reset signal asserted it is the reset handler (R730). -/
def step (s : State) : Host.Outcome State Fault Refusal :=
  if s.coldReset then .next (resetHandler s) else runStep (beginStep s)

/-- `s` with an instruction stored where the next step fetches it. -/
def State.withFetchWord (s : State) (_nbits w : Nat) : State := placeFetchWord s (BitVec.ofNat 32 w)

end Sys2Proof.Machine
end

