-- ==== Sys2Proof/Machine/ExTable.lean ====
section
/-! DEFINITION. The execution function table of the EX stage: each decoded instruction maps to exactly one execution
function (R3, R276). -/

namespace Sys2Proof.Machine

/-- The EX stage of an instruction. -/
def exOf (i : Instr) (s : State) : ExResult :=
  match i with
  | .add rd rs rt => exAdd rd rs rt s
  | .addu rd rs rt => exAddu rd rs rt s
  | .sub rd rs rt => exSub rd rs rt s
  | .subu rd rs rt => exSubu rd rs rt s
  | .dadd rd rs rt => exDadd rd rs rt s
  | .daddu rd rs rt => exDaddu rd rs rt s
  | .dsub rd rs rt => exDsub rd rs rt s
  | .dsubu rd rs rt => exDsubu rd rs rt s
  | .slt rd rs rt => exSlt rd rs rt s
  | .sltu rd rs rt => exSltu rd rs rt s
  | .and_ rd rs rt => exAnd rd rs rt s
  | .or_ rd rs rt => exOr rd rs rt s
  | .xor_ rd rs rt => exXor rd rs rt s
  | .nor_ rd rs rt => exNor rd rs rt s
  | .addi rt rs imm => exAddi rt rs imm s
  | .addiu rt rs imm => exAddiu rt rs imm s
  | .daddi rt rs imm => exDaddi rt rs imm s
  | .daddiu rt rs imm => exDaddiu rt rs imm s
  | .slti rt rs imm => exSlti rt rs imm s
  | .sltiu rt rs imm => exSltiu rt rs imm s
  | .andi rt rs imm => exAndi rt rs imm s
  | .ori rt rs imm => exOri rt rs imm s
  | .xori rt rs imm => exXori rt rs imm s
  | .lui rt imm => exLui rt imm s
  | .sll rd rt sa => exSll rd rt sa s
  | .srl rd rt sa => exSrl rd rt sa s
  | .sra rd rt sa => exSra rd rt sa s
  | .dsll rd rt sa => exDsll rd rt sa s
  | .dsrl rd rt sa => exDsrl rd rt sa s
  | .dsra rd rt sa => exDsra rd rt sa s
  | .dsll32 rd rt sa => exDsll32 rd rt sa s
  | .dsrl32 rd rt sa => exDsrl32 rd rt sa s
  | .dsra32 rd rt sa => exDsra32 rd rt sa s
  | .sllv rd rt rs => exSllv rd rt rs s
  | .srlv rd rt rs => exSrlv rd rt rs s
  | .srav rd rt rs => exSrav rd rt rs s
  | .dsllv rd rt rs => exDsllv rd rt rs s
  | .dsrlv rd rt rs => exDsrlv rd rt rs s
  | .dsrav rd rt rs => exDsrav rd rt rs s
  | .mult rs rt => exMult rs rt s
  | .multu rs rt => exMultu rs rt s
  | .dmult rs rt => exDmult rs rt s
  | .dmultu rs rt => exDmultu rs rt s
  | .div rs rt => exDiv rs rt s
  | .divu rs rt => exDivu rs rt s
  | .ddiv rs rt => exDdiv rs rt s
  | .ddivu rs rt => exDdivu rs rt s
  | .mfhi rd => exMfhi rd s
  | .mflo rd => exMflo rd s
  | .mthi rs => exMthi rs s
  | .mtlo rs => exMtlo rs s
  | .j target => exJ target s
  | .jal target => exJal target s
  | .jr rs => exJr rs s
  | .jalr rd rs => exJalr rd rs s
  | .beq rs rt imm => exBeq rs rt imm s
  | .bne rs rt imm => exBne rs rt imm s
  | .blez rs imm => exBlez rs imm s
  | .bgtz rs imm => exBgtz rs imm s
  | .beql rs rt imm => exBeql rs rt imm s
  | .bnel rs rt imm => exBnel rs rt imm s
  | .blezl rs imm => exBlezl rs imm s
  | .bgtzl rs imm => exBgtzl rs imm s
  | .bltz rs imm => exBltz rs imm s
  | .bgez rs imm => exBgez rs imm s
  | .bltzl rs imm => exBltzl rs imm s
  | .bgezl rs imm => exBgezl rs imm s
  | .bltzal rs imm => exBltzal rs imm s
  | .bgezal rs imm => exBgezal rs imm s
  | .bltzall rs imm => exBltzall rs imm s
  | .bgezall rs imm => exBgezall rs imm s
  | .lb rt offset base => exLb rt offset base s
  | .lbu rt offset base => exLbu rt offset base s
  | .lh rt offset base => exLh rt offset base s
  | .lhu rt offset base => exLhu rt offset base s
  | .lw rt offset base => exLw rt offset base s
  | .lwu rt offset base => exLwu rt offset base s
  | .ld rt offset base => exLd rt offset base s
  | .lwl rt offset base => exLwl rt offset base s
  | .lwr rt offset base => exLwr rt offset base s
  | .ldl rt offset base => exLdl rt offset base s
  | .ldr rt offset base => exLdr rt offset base s
  | .sb rt offset base => exSb rt offset base s
  | .sh rt offset base => exSh rt offset base s
  | .sw rt offset base => exSw rt offset base s
  | .sd rt offset base => exSd rt offset base s
  | .swl rt offset base => exSwl rt offset base s
  | .swr rt offset base => exSwr rt offset base s
  | .sdl rt offset base => exSdl rt offset base s
  | .sdr rt offset base => exSdr rt offset base s
  | .ll rt offset base => exLl rt offset base s
  | .sc rt offset base => exSc rt offset base s
  | .lld rt offset base => exLld rt offset base s
  | .scd rt offset base => exScd rt offset base s
  | .sync => exSync s
  | .mfc0 rt rd => exMfc0 rt rd s
  | .dmfc0 rt rd => exDmfc0 rt rd s
  | .mtc0 rt rd => exMtc0 rt rd s
  | .dmtc0 rt rd => exDmtc0 rt rd s
  | .tlbr => exTlbr s
  | .tlbwi => exTlbwi s
  | .tlbwr => exTlbwr s
  | .tlbp => exTlbp s
  | .eret => exEret s
  | .syscall code => exSyscall code s
  | .break_ code => exBreak code s
  | .tge rs rt code => exTge rs rt code s
  | .tgeu rs rt code => exTgeu rs rt code s
  | .tlt rs rt code => exTlt rs rt code s
  | .tltu rs rt code => exTltu rs rt code s
  | .teq rs rt code => exTeq rs rt code s
  | .tne rs rt code => exTne rs rt code s
  | .tgei rs imm => exTgei rs imm s
  | .tgeiu rs imm => exTgeiu rs imm s
  | .tlti rs imm => exTlti rs imm s
  | .tltiu rs imm => exTltiu rs imm s
  | .teqi rs imm => exTeqi rs imm s
  | .tnei rs imm => exTnei rs imm s
  | .cache op offset base => exCache op offset base s
  | .cop1 payload => exCop1 payload s
  | .lwc1 rt offset base => exLwc1 rt offset base s
  | .ldc1 rt offset base => exLdc1 rt offset base s
  | .swc1 rt offset base => exSwc1 rt offset base s
  | .sdc1 rt offset base => exSdc1 rt offset base s
  | .cop2 payload => exCop2 payload s
  | .lwc2 rt offset base => exLwc2 rt offset base s
  | .ldc2 rt offset base => exLdc2 rt offset base s
  | .swc2 rt offset base => exSwc2 rt offset base s
  | .sdc2 rt offset base => exSdc2 rt offset base s

/-- The EX stage of a class of word (R271, R272, R276), the must-be-zero refusal before any CpU or RI as in `execDecoded` (DESIGN
CHOICE, log entry 23). -/
def exDecoded (d : Decoded) (s : State) : ExResult :=
  match d with
  | .instr i => exOf i s
  | .reserved cop0 => reservedOut cop0 s
  | .mustBeZero => .refuse .mustBeZero

end Sys2Proof.Machine
end

