-- ==== Sys2Proof/Machine/Pipeline.lean ====
section
/-! DEFINITION. The cycle-stepped machine (R750 to R790): the five stages over the four latches, fault propagation,
interlocks, forwarding and exception entry, and `cycle`, one PClock. The EX stage runs the same execution functions as
the instruction-level step; here `pc` is the fetch PC and a latch header carries the pc and delay-slot flag of its
instruction, so `delay` stays none. -/

namespace Sys2Proof.Machine

/-! ## Fault identifiers (R652) -/

/-- The fault identifier and cause data of an exception (R652, R751), without the delay-slot flag. -/
def excToFault : Exc → FaultId × CauseData
  | .int => (.intr, .empty)
  | .tlbModified va => (.dtlb, { CauseData.empty with va := va, kind := .store, modified := true })
  | .tlbRefill k va m =>
    (if k == .fetch then .itlb else .dtlb, { CauseData.empty with va := va, kind := k, refill := true, mode64 := m })
  | .tlbInvalid k va => (if k == .fetch then .itlb else .dtlb, { CauseData.empty with va := va, kind := k })
  | .addrError k va => (if k == .fetch then .iade else .dade, { CauseData.empty with va := va, kind := k })
  | .fetchBusError => (.ibe, .empty)
  | .dataBusError => (.dbe, .empty)
  | .syscall => (.sysc, .empty)
  | .breakpoint => (.brpt, .empty)
  | .reserved => (.rsvd, .empty)
  | .copUnusable n => (.cpu, { CauseData.empty with cop := n })
  | .overflow => (.ovfl, .empty)
  | .trap => (.trap, .empty)
  | .floatingPoint => (.fpe, .empty)
  | .watch => (.wat, .empty)

/-- The exception a latch's fault identifier stands for; the interlocks, reset and the killed mark stand for none (R652). -/
def faultToExc (f : FaultId) (c : CauseData) : Option Exc :=
  match f with
  | .none | .rst | .icb | .unc | .ldi | .dcb | .killed => none
  | .iade | .dade => some (.addrError c.kind c.va)
  | .itlb | .dtlb =>
    some (if c.modified then .tlbModified c.va
          else if c.refill then .tlbRefill c.kind c.va c.mode64 else .tlbInvalid c.kind c.va)
  | .ibe => some .fetchBusError
  | .dbe => some .dataBusError
  | .sysc => some .syscall
  | .brpt => some .breakpoint
  | .rsvd => some .reserved
  | .cpu => some (.copUnusable c.cop)
  | .ovfl => some .overflow
  | .trap => some .trap
  | .fpe => some .floatingPoint
  | .wat => some .watch
  | .intr => some .int

/-- A faulted slot's header (R751, R771). -/
def faultHeader (pc : Word) (bd : Bool) (e : Exc) : Header :=
  { pc := pc, live := false, faultId := (excToFault e).1, cause := { (excToFault e).2 with bd := bd } }

/-- A killed slot's header (R751). -/
def Header.kill (h : Header) : Header := { h with live := false, faultId := .killed }

/-- Whether a header is a faulted slot's (R751). -/
def Header.faulted (h : Header) : Bool := (faultToExc h.faultId h.cause).isSome

/-! ## Latches -/

/-- The slot of a latch with a header and no payload: what the rules do not give of it is 0, as in the three below (DESIGN CHOICE,
log entry 29). -/
def ExDc.ofHeader (h : Header) : ExDc :=
  { hd := h, before := { hiloAge := 0, dDirty := [], dMaybe := [] }, request := none, result := 0, dest := 0, eret := false,
    immWrite := false }
/-- The slot of a latch with a header and no payload. -/
def DcWb.ofHeader (h : Header) : DcWb :=
  { hd := h, result := 0, dest := 0, link := none, load := false, eret := false, immWrite := false }
/-- The slot of a latch with a header and no payload. -/
def RfEx.ofHeader (h : Header) : RfEx := { hd := h, iw := 0, iwMask := 0, desc := .instr (.sll 0 0 0) }
/-- The slot of a latch with a header and no payload. -/
def IcRf.ofHeader (h : Header) : IcRf :=
  { hd := h, pa := 0, cached := false, wordReady := false, word := 0, refilled := false }

/-- Write a latch. -/
def State.setIcrf (s : State) (l : IcRf) : State := { s with pipe := { s.pipe with icrf := l } }
/-- Write a latch. -/
def State.setRfex (s : State) (l : RfEx) : State := { s with pipe := { s.pipe with rfex := l } }
/-- Write a latch. -/
def State.setExdc (s : State) (l : ExDc) : State := { s with pipe := { s.pipe with exdc := l } }
/-- Write a latch. -/
def State.setDcwb (s : State) (l : DcWb) : State := { s with pipe := { s.pipe with dcwb := l } }

/-! ## Control -/

/-- The outcome of a stage: the cycle goes on, or it is aborted (an interlock or exception entry), or the machine stops. -/
inductive StageOut where
  | go (s : State)
  | abort (s : State)
  | stop (r : Refusal)
deriving DecidableEq, Repr

/-- What `Detect` sets besides the stage's output latch (R771). -/
def State.detected (s : State) : State :=
  { s with pipe := { s.pipe with squash := true, fetchHold := true, faultPresent := true, excHistory := 0 } }

/-- `Interlock(k, n)` (R774). -/
def State.interlock (s : State) (k n : Nat) : State :=
  { s with pipe := { s.pipe with cyclesToStall := n, skipStages := k, faultPresent := true, excHistory := 0 } }

/-- `EnterException()` after `TakeException` (R775). -/
def State.enterException (s : State) : State :=
  { s with pipe := { s.pipe with
      dcwb := .ofHeader .bubble, fetchHold := false, cyclesToStall := s.params.excEntryStall, skipStages := 1,
      faultPresent := true, excHistory := 0 } }

/-- The `n` of the bus's `busy(n)` to a request (none: it has data or an error), and the state after that answer (R146): by
its rules, else by the next of the listed answers (log entry 15). -/
def State.busAnswer (s : State) (ty : ReqType) (a n : Nat) : Option Nat × State :=
  match busBusyAt s.inputs ty a n with
  | some m => (some m, s)
  | none =>
    match s.inputs.busWait with
    | [] => (none, s)
    | w :: rest => (w, { s with inputs := { s.inputs with busWait := rest } })

/-! ## WB (R760) -/

/-- The machine state as the instruction in a slot sees it: its own pc and delay-slot flag. -/
def State.viewAt (s : State) (h : Header) : State :=
  { s with pc := h.pc, delay := if h.cause.bd then some { next := 0, killed := false } else none }

/-- WB: an exception reaching writeback is taken; an instruction writes its result, the LL marker and ERET's LLbit, and
Random moves with its completion under `per_cycle` (R204, R760). LLAddr is written here too, so the EX of the two instructions
behind an LL still finds its older value (R760, R769). -/
def stageWb (s : State) : StageOut :=
  let l := s.pipe.dcwb
  match faultToExc l.hd.faultId l.hd.cause with
  | some e => .abort (takeException e (s.viewAt l.hd)).enterException
  | none => if l.hd.live then .go (writeBack l.dest l.result l.link l.eret s).retireRandom else .go s

/-! ## DC (R761) -/

/-- Whether DC's request gets as far as the bus (R541, R761). -/
def reachesBus (rq : MemReq) (rt : RegNo) (s : State) : Bool :=
  match dcAccess rq rt s with
  | .stop _ => false
  | .raise e => e == .dataBusError
  | .done _ _ => !(rq.op.conditional && !s.llbit)

/-- `Detect(DC, F)` (R771): the instruction has no effect, so what its EX changed besides immediate writes is undone. -/
def detectDc (s : State) (l : ExDc) (e : Exc) : StageOut :=
  let t : State := { s with
    hz := { s.hz with hiloAge := l.before.hiloAge }
    dDirty := l.before.dDirty
    dMaybe := l.before.dMaybe }
  .go (t.setDcwb (.ofHeader (faultHeader l.hd.pc l.hd.cause.bd e))).detected

/-- The access of the request in DC, its store window already counted from EX. -/
def dcPerform (l : ExDc) (rq : MemReq) (s : State) : StageOut :=
  match dcAccess rq l.dest s with
  | .stop r => .stop r
  | .raise e => detectDc s l e
  | .done v st =>
    .go ({ st with hz := s.hz }.setDcwb
      { hd := l.hd, result := v, dest := if rq.op.isCp1 then 0#5 else l.dest, link := rq.linkPa,
        load := rq.op.isGprLoad, eret := l.eret, immWrite := l.immWrite })

/-- DC: the interrupt sample, then the request with its interlock (R761, R785). -/
def stageDc (s : State) : StageOut :=
  let l := s.pipe.exdc
  if s.pipe.squash then .go (s.setDcwb (.ofHeader l.hd.kill))
  else if !l.hd.live then .go (s.setDcwb (.ofHeader l.hd))
  else if intPending s.cp0 && !l.immWrite then detectDc s l .int
  else
    match l.request with
    | none =>
      .go (s.setDcwb { hd := l.hd, result := l.result, dest := l.dest, link := none, load := false, eret := l.eret,
                       immWrite := l.immWrite })
    | some rq =>
      if reachesBus rq l.dest s then
        match s.busAnswer rq.op.reqType rq.addr.toNat rq.size with
        | (some n, s') => .abort (s'.interlock 1 n)
        | (none, s') => dcPerform l rq s'
      else dcPerform l rq s

/-! ## EX (R763, R765, R767) -/

/-- The descriptor of the word EX executes, `iw & iw_mask` (R444). -/
def RfEx.executed (l : RfEx) : Decoded := if l.iwMask = 0#32 then .instr (.sll 0 0 0) else l.desc

/-- The flags of a descriptor (R264). -/
def descFlags : Decoded → Flags
  | .instr i => i.flags
  | .reserved _ => {}
  | .mustBeZero => {}

/-- `LoadUse(L)` (R767). -/
def loadUse (s : State) (l : RfEx) : Bool :=
  let w := s.pipe.dcwb
  let f := descFlags l.executed
  w.hd.live && w.load && w.dest != 0#5 &&
    ((f.needsRs && fieldRs l.iw == w.dest) || (f.needsRt && fieldRt l.iw == w.dest))

/-- The state EX reads its operands in: the register file after WB, over it the result in the DC→WB latch (R765). -/
def exView (s : State) (h : Header) : State :=
  (s.viewAt h).writeReg (if s.pipe.dcwb.hd.live then s.pipe.dcwb.dest else 0#5) s.pipe.dcwb.result

/-- The state after EX's immediate writes, with the registers and the fetch PC of the machine, the HI/LO window one
instruction further. -/
def exCommit (s st : State) : State := { st with gpr := s.gpr, pc := s.pc, delay := s.delay, hz := st.hz.retire }

/-- EX's effect on the fetch PC and its notes for RF (R440, R444, R601, R763). -/
def State.redirect (s : State) (ctl : Ctl) : State :=
  match ctl with
  | .seq => s
  | .branch taken likely target =>
    { s with
      pc := if taken then target else s.pc
      pipe := { s.pipe with exBranch := true, exKill := likely && !taken } }
  | .eret target => { s with pc := target, pipe := { s.pipe with exEret := true } }

/-- Whether IC has fetched the instruction of a slot, or found its fetch fault. -/
def Header.fetched (h : Header) : Bool := h.live || (h.faulted && h.pc.extractLsb' 0 2 == 0#2)

/-- The window of a new CP0 or TLB write, counted from the instruction already fetched behind it, whether its fetch
faulted or not (R800): that fetch is checked here, the later ones in IC. What its translation after the write refuses comes
first (R160, log entry 13). As in `icFetch`, the slot may be one that a later exception squashes (log entry 8). -/
def exHazard (before after : State) : Except Refusal State :=
  match after.hz.cp0 with
  | [] => .ok after
  | h :: rest =>
    if after.hz.cp0.length = before.hz.cp0.length || h.left == 0 || !before.pipe.icrf.hd.fetched then .ok after
    else
      let va := before.pipe.icrf.hd.pc
      match translate h.after va .fetch with
      | .stop r => .error r
      | t =>
        if translate h.before va .fetch != t then .error .cp0Hazard
        else .ok { after with hz := { after.hz with cp0 := { h with left := h.left - 1 } :: rest } }

/-- LLbit as the instruction now in EX will find it in DC, after the WB of the one before it (R769). -/
def State.llbitInDc (s : State) : Bool :=
  let w := s.pipe.dcwb
  if w.hd.live then (s.llbit || w.link.isSome) && !w.eret else s.llbit

/-- Whether the store leaving EX will be made in DC: not one that the bus answers `error`, not a store-conditional that
finds LLbit clear or its address watched (R541, R769). The bus's rules are read as they stand in the next cycle, DC's unless a
stall comes between: DESIGN CHOICE (log entry 8). -/
def State.storeMade (s : State) (r : MemReq) : Bool :=
  r.op.isStore && !busErrorAt s.inputs.tick .write r.addr.toNat r.size &&
    (!r.op.conditional || (s.llbitInDc && watchCheck s.cp0 r.op r.pa == .pass))

/-- The store window of a store leaving EX (R252): it is counted from EX, the bytes landing in DC. Only a store that is made
opens it; that an interrupt in DC can still stop the store is left out of account (DESIGN CHOICE, log entry 8). -/
def State.noteStore (s : State) (rq : Option MemReq) : State :=
  match rq with
  | none => s
  | some r =>
    if s.storeMade r then
      { s with hz := { s.hz with stores := { left := 2, addr := r.addr.toNat, size := r.size } :: s.hz.stores } }
    else s

/-- EX of a live slot (R763). An instruction that raises in EX does not count in the window of R768, one that an exception
in DC stops is taken out of it again there (DESIGN CHOICE, log entry 8). A line that CACHE moves takes the time of a refill,
behind the instruction (R627, R785, log entry 27). -/
def exLive (s : State) (l : RfEx) : StageOut :=
  match exDecoded l.executed (exView s l.hd) with
  | .stop r => .stop r
  | .raise e st =>
    .go ({ s with cp1 := st.cp1, draws := st.draws }.setExdc (.ofHeader (faultHeader l.hd.pc l.hd.cause.bd e))).detected
  | .ok o =>
    match exHazard s (exCommit s o.st) with
    | .error r => .stop r
    | .ok st =>
      let t := ((st.redirect o.ctl).noteStore o.request).setExdc
        { hd := l.hd, before := { hiloAge := s.hz.hiloAge, dDirty := s.dDirty, dMaybe := s.dMaybe },
          request := o.request, result := o.result, dest := o.dest, eret := o.ctl.isEret, immWrite := o.immWrite }
      match o.lineMove with
      | some (ty, a) =>
        let (n, t') := t.busAnswer ty a 32
        .abort (t'.interlock 3 (s.params.refillLatency + n.getD 0))
      | none => .go t

/-- EX (R763), with the load-use slip (R767). -/
def stageEx (s0 : State) : StageOut :=
  let s : State := { s0 with
    pipe := { s0.pipe with exBranch := false, exKill := false, exEret := false }
    hz := { s0.hz with icBefore := none } }
  let l := s.pipe.rfex
  if s.pipe.squash then .go (s.setExdc (.ofHeader l.hd.kill))
  else if !l.hd.live then .go (s.setExdc (.ofHeader l.hd))
  else if loadUse s l then
    .go { s with pipe := { s.pipe with exdc := .ofHeader .bubble, holdFront := true } }
  else exLive s l

/-! ## RF (R764) -/

/-- The latch RF writes for a fetched word (R764); the store windows one instruction older (R252). -/
def rfLatch (s : State) (l : IcRf) (w : Word32) : State :=
  { s with hz := { s.hz with stores := ageStores s.hz.stores } }.setRfex
    { hd := { l.hd with cause := { l.hd.cause with bd := s.pipe.exBranch } }, iw := w,
      iwMask := if s.pipe.exKill then 0#32 else 0xFFFFFFFF#32, desc := decode w }

/-- `Detect(RF, IBE)` (R771). -/
def detectIbe (s : State) (l : IcRf) : StageOut :=
  .go (s.setRfex (.ofHeader (faultHeader l.hd.pc s.pipe.exBranch .fetchBusError))).detected

/-- RF of a cached fetch: the hit line's word, or a refill and its interlock (R227, R764, R785). A CACHE in EX in the same
cycle does not affect it (R627). The refill comes before the DC of a store just ahead, whose line it does not find dirty yet
(R101, R228, log entry 8). -/
def rfCached (s : State) (l : IcRf) : StageOut :=
  match s.fetchProbe l.hd.pc l.pa with
  | some line => .go (rfLatch s l (line.word l.pa))
  | none =>
    if l.refilled then .go (rfLatch s l ((s.icLine l.hd.pc).word l.pa))
    else if anyLine s.dDirty (lineBase l.pa) 32 then .stop .fetchOfDirtyLine
    else if busErrorAt s.inputs .read (lineBase l.pa) 32 then detectIbe s l
    else
      let (n, s') := (s.icFill l.hd.pc l.pa).busAnswer .read (lineBase l.pa) 32
      .abort ((s'.setIcrf { l with refilled := true }).interlock 3 (s.params.refillLatency + n.getD 0))

/-- RF of an uncached fetch: the word once it is ready, else the bus read and its interlock (R764, R785, R786). -/
def rfUncached (s : State) (l : IcRf) : StageOut :=
  if l.wordReady then .go (rfLatch s l l.word)
  else if anyLine s.dDirty l.pa.toNat 4 then .stop .fetchOfDirtyLine
  else if busErrorAt s.inputs .read l.pa.toNat 4 then detectIbe s l
  else
    let (n, s') := (s.afterRead l.pa.toNat 4).busAnswer .read l.pa.toNat 4
    .abort ((s'.setIcrf { l with word := BitVec.ofNat 32 (s.busRead l.pa.toNat 4), wordReady := true }).interlock 3
      (s.params.uncachedLatency + n.getD 0))

/-- RF (R764). The refusal of R252 comes before that of R232: DESIGN CHOICE (log entry 13). -/
def stageRf (s : State) : StageOut :=
  let l := s.pipe.icrf
  if s.pipe.squash then .go (s.setRfex (.ofHeader l.hd.kill))
  else if s.pipe.holdFront then .go s
  else if s.pipe.exEret then
    .go { s with pipe := { s.pipe with rfex := .ofHeader l.hd.kill, fetchHold := false } }
  else if l.hd.faulted then
    .go (s.setRfex (.ofHeader { l.hd with cause := { l.hd.cause with bd := s.pipe.exBranch } }))
  else if !l.hd.live then .go (s.setRfex (.ofHeader l.hd))
  else if storeHazardAt s.hz l.pa then .stop .storeToFetched
  else if l.cached then rfCached s l else rfUncached s l

/-! ## IC (R766) -/

/-- A fetch fault found by IC: recorded in the slot, nothing fetched behind it (R766). -/
def icFault (s : State) (e : Exc) : StageOut :=
  .go { s with pipe := { s.pipe with icrf := .ofHeader (faultHeader s.pc false e), fetchHold := true } }

/-- The slot IC fetches is the one ERET, now in L_rfex, will kill (R601): it is no instruction of the program, so the
windows of R800 neither refuse it nor count it. -/
def State.behindEret (s : State) : Bool := s.pipe.rfex.hd.live && s.pipe.rfex.executed == .instr .eret

/-- The translation of IC's fetch, its hazards and the latch (R766, R800). A slot behind an instruction that then raises, and
that will be squashed, is refused too, where `step` never fetches it; and so is the slot behind ERET (R601), by what its translation
or the byte order refuses though not by the windows of R800: DESIGN CHOICE (log entry 8). -/
def icFetch (s : State) : StageOut :=
  let hazard := !s.behindEret && cp0HazardAt s.hz s.pc
  match translate s.transCtx s.pc .fetch with
  | .stop r => .stop r
  | .raise e => if hazard then .stop .cp0Hazard else icFault s e
  | .ok seg pa cached =>
    if hazard then .stop .cp0Hazard
    else
      match endianRefusal s.cp0 with
      | some r => .stop r
      | none =>
        let windows := if s.behindEret then s.hz.cp0 else ageCp0 s.hz.cp0
        .go ({ s with activeSeg := seg, pc := s.pc + 4#64, hz := { s.hz with cp0 := windows } }.setIcrf
          { hd := { Header.bubble with pc := s.pc, live := true }, pa := pa, cached := cached, wordReady := false,
            word := 0, refilled := false })

/-- IC (R766). A misaligned pc raises before the segment is resolved, which the impossible mode would refuse: DEDUCED from R170
and R666 against the order of R766's pseudocode (log entry 13). In a load-use slip L_icrf is kept (R767) also while `fetch_hold` is set, where the pseudocode of R766 alone
would write a bubble over a fetch fault just recorded: DESIGN CHOICE (log entry 25). -/
def stageIc (s : State) : StageOut :=
  if s.pipe.squash then .go (s.setIcrf (.ofHeader .bubble))
  else if s.pipe.holdFront then .go s
  else if s.pipe.fetchHold then .go (s.setIcrf (.ofHeader .bubble))
  else if s.pc.extractLsb' 0 2 ≠ 0#2 then icFault s (.addrError .fetch s.pc)
  else icFetch s

/-! ## One cycle (R770) -/

/-- Run a stage unless the cycle resumes behind it, then the later stages. -/
def StageOut.andThen (r : StageOut) (k : State → StageOut) : StageOut :=
  match r with
  | .go s => k s
  | .abort s => .abort s
  | .stop r => .stop r

/-- A stage that runs only when the cycle starts at or before it (R770). -/
def fromStage (first k : Nat) (stage : State → StageOut) (s : State) : StageOut :=
  if first ≤ k then stage s else .go s

/-- The stages from `first` on, in the order WB, DC, EX, RF, IC (R17, R770). -/
def runStages (first : Nat) (s : State) : StageOut :=
  ((((fromStage first 0 stageWb s).andThen (fromStage first 1 stageDc)).andThen (fromStage first 2 stageEx)).andThen
    (fromStage first 3 stageRf)).andThen (fromStage first 4 stageIc)

/-- Count, Cause.IP7 and the interrupt lines in one cycle (R700, R701, R770): Count advances when the phase bit is 1.
That it is the bit as the cycle finds it, which then alternates, is a DESIGN CHOICE (log entry 28). -/
def State.tickCycle (s : State) : State :=
  let c := if s.countPhase then countAdvance 1 s.cp0 else s.cp0
  { s with
    cp0 := { c with cause := setLines (linesNow s) c.cause }
    countPhase := !s.countPhase
    inputs := s.inputs.tick
    draws := s.draws + 2 }

/-- The end of a full cycle: the history of the slow path (R770, R776). -/
def State.endCycle (s : State) : State :=
  if s.pipe.faultPresent then
    if 4 < s.pipe.excHistory + 1 then { s with pipe := { s.pipe with faultPresent := false, excHistory := 0 } }
    else { s with pipe := { s.pipe with excHistory := s.pipe.excHistory + 1 } }
  else s

/-- The stages of a cycle that is no stall cycle (R770, R772). -/
def runCycle (s : State) : Host.Outcome State Fault Refusal :=
  let s' : State := { s with pipe := { s.pipe with squash := false, holdFront := false, skipStages := 0 } }
  match runStages s.pipe.skipStages s' with
  | .go t => .next t.endCycle
  | .abort t => .next t
  | .stop r => .refused r

/-- `cycle()` (R770, R790), the external invalidates of the gap before it first (R810). -/
def cycle (s : State) : Host.Outcome State Fault Refusal :=
  if s.coldReset then .next (resetHandler s)
  else
    let t := s.externalInvalidates.tickCycle
    if 0 < t.pipe.cyclesToStall then
      .next { t with pipe := { t.pipe with cyclesToStall := t.pipe.cyclesToStall - 1 } }
    else runCycle t

end Sys2Proof.Machine
end

