-- ==== Sys2Proof/Safety.lean ====
section
/-! DEFINITION. What counts as a sound state of the machine, and the words the statements are written in: what an
instruction leaves, what it leaves unchanged, and when a data access goes through. -/

namespace Sys2Proof.Machine

/-! ## The invariant -/

/-- The bits of the CP0 registers that read 0 or are hard-wired (10_state.md R61 to R86) are so. -/
structure Cp0.Sound (c : Cp0) (p : Params) : Prop where
  index : c.index &&& 0x7FFFFFC0#32 = 0#32
  random : c.random &&& 0xFFFFFFC0#32 = 0#32
  entryLo0 : c.entryLo0 &&& 0xFFFFFFFFC0000000#64 = 0#64
  entryLo1 : c.entryLo1 &&& 0xFFFFFFFFC0000000#64 = 0#64
  context : c.context &&& 0x000000000000000F#64 = 0#64
  pageMask : c.pageMask &&& 0xFE001FFF#32 = 0#32
  wired : c.wired &&& 0xFFFFFFC0#32 = 0#32
  entryHi : c.entryHi &&& 0x3FFFFF0000001F00#64 = 0#64
  status : c.status &&& 0x00A80000#32 = 0#32
  cause : c.cause &&& 0x4FFF0083#32 = 0#32
  config : c.config &&& 0x80FF7FF0#32 = 0x00066460#32
  configEc : c.config.extractLsb' 28 3 = p.configEc
  watchLo : c.watchLo &&& 0x00000004#32 = 0#32
  watchHi : c.watchHi &&& 0xFFFFFFF0#32 = 0#32
  xcontext : c.xcontext &&& 0x000000000000000F#64 = 0#64
  parityError : c.parityError &&& 0xFFFFFF00#32 = 0#32
  tagLo : c.tagLo &&& 0xF000003F#32 = 0#32

/-- The invariant every step keeps: memory in its canonical form inside the physical space, register 0 holding 0 (R40), the
reserved CP0 bits as their tables say, DDirty and DMaybe rising lists of line addresses with every dirty line in DMaybe
(R106, R232), and the HI/LO window counter in its range. -/
structure Inv (s : State) : Prop where
  memory : Memory.wf s.mem = true
  reg0 : s.gpr[0] = 0#64
  cp0 : s.cp0.Sound s.params
  dirty : linesWfFrom 0 s.dDirty = true
  maybe : linesWfFrom 0 s.dMaybe = true
  dirtyMaybe : ∀ l, l ∈ s.dDirty → l ∈ s.dMaybe
  hiloAge : s.hz.hiloAge ≤ 3

/-! ## Reserved words and must-be-zero fields -/

/-- The word lands on a `RES` cell of R265 to R268; the flag says whether in the COP0 group. -/
def ReservedWord (w : Word32) (cop0 : Bool) : Prop :=
  let op := w.extractLsb' 26 6
  let rs := w.extractLsb' 21 5
  let rt := w.extractLsb' 16 5
  let funct := w.extractLsb' 0 6
  match cop0 with
  | false =>
    op ∈ [0x13#6, 0x1C#6, 0x1D#6, 0x1E#6, 0x1F#6, 0x33#6, 0x3B#6] ∨
    (op = 0x00#6 ∧ funct ∈ [0x01#6, 0x05#6, 0x0A#6, 0x0B#6, 0x0E#6, 0x15#6, 0x28#6, 0x29#6, 0x35#6, 0x37#6, 0x39#6, 0x3D#6]) ∨
    (op = 0x01#6 ∧ rt ∈ [0x04#5, 0x05#5, 0x06#5, 0x07#5, 0x0D#5, 0x0F#5, 0x14#5, 0x15#5, 0x16#5, 0x17#5, 0x18#5, 0x19#5,
      0x1A#5, 0x1B#5, 0x1C#5, 0x1D#5, 0x1E#5, 0x1F#5])
  | true =>
    op = 0x10#6 ∧
      ((w.getLsbD 25 = false ∧ rs ∉ [0x00#5, 0x01#5, 0x04#5, 0x05#5]) ∨
       (w.getLsbD 25 = true ∧ funct ∉ [0x01#6, 0x02#6, 0x06#6, 0x08#6, 0x18#6]))

/-- The word matches a row of the opcode table but for a non-zero field of its `zero_fields` (R272). -/
def ZeroFieldWord (w : Word32) : Prop :=
  let op := w.extractLsb' 26 6
  let rs := w.extractLsb' 21 5
  let rt := w.extractLsb' 16 5
  let rd := w.extractLsb' 11 5
  let sa := w.extractLsb' 6 5
  let funct := w.extractLsb' 0 6
  (op = 0x00#6 ∧
    ((funct ∈ [0x20#6, 0x21#6, 0x22#6, 0x23#6, 0x24#6, 0x25#6, 0x26#6, 0x27#6, 0x2A#6, 0x2B#6, 0x2C#6, 0x2D#6, 0x2E#6,
        0x2F#6, 0x04#6, 0x06#6, 0x07#6, 0x14#6, 0x16#6, 0x17#6] ∧ sa ≠ 0#5) ∨
     (funct ∈ [0x00#6, 0x02#6, 0x03#6, 0x38#6, 0x3A#6, 0x3B#6, 0x3C#6, 0x3E#6, 0x3F#6] ∧ rs ≠ 0#5) ∨
     (funct ∈ [0x18#6, 0x19#6, 0x1A#6, 0x1B#6, 0x1C#6, 0x1D#6, 0x1E#6, 0x1F#6] ∧ (rd ≠ 0#5 ∨ sa ≠ 0#5)) ∨
     (funct ∈ [0x10#6, 0x12#6] ∧ (rs ≠ 0#5 ∨ rt ≠ 0#5 ∨ sa ≠ 0#5)) ∨
     (funct ∈ [0x08#6, 0x11#6, 0x13#6] ∧ (rt ≠ 0#5 ∨ rd ≠ 0#5 ∨ sa ≠ 0#5)) ∨
     (funct = 0x09#6 ∧ (rt ≠ 0#5 ∨ sa ≠ 0#5)) ∨
     (funct = 0x0F#6 ∧ (rs ≠ 0#5 ∨ rt ≠ 0#5 ∨ rd ≠ 0#5 ∨ sa ≠ 0#5)))) ∨
  (op = 0x0F#6 ∧ rs ≠ 0#5) ∨
  (op ∈ [0x06#6, 0x07#6, 0x16#6, 0x17#6] ∧ rt ≠ 0#5) ∨
  (op = 0x10#6 ∧
    ((w.getLsbD 25 = false ∧ rs ∈ [0x00#5, 0x01#5, 0x04#5, 0x05#5] ∧ w.extractLsb' 0 11 ≠ 0#11) ∨
     (w.getLsbD 25 = true ∧ funct ∈ [0x01#6, 0x02#6, 0x06#6, 0x08#6, 0x18#6] ∧ w.extractLsb' 6 19 ≠ 0#19)))

/-! ## What an instruction leaves -/

/-- The address of the next instruction in sequence: behind the delay slot when this one stands in it (R440, R48). -/
def nextPc (s : State) : Word :=
  match s.delay with
  | none => s.pc + 4#64
  | some d => d.next

/-- The registers after an instruction with destination `rd` and result `v` (register 0 discards it, R40): every other
general register unchanged, HI, LO, LLbit and the CP0 registers as given. -/
structure Results (s t : State) (rd : RegNo) (v hi lo : Word) (ll : Bool) (c : Cp0) : Prop where
  dest : t.readReg rd = if rd = 0#5 then 0#64 else v
  others : ∀ r, r ≠ rd → t.readReg r = s.readReg r
  hi : t.hi = hi
  lo : t.lo = lo
  llbit : t.llbit = ll
  cp0 : t.cp0 = c

/-- Everything besides the registers, the pc and memory unchanged. -/
structure SameRest (s t : State) : Prop where
  tlb : t.tlb = s.tlb
  recency : t.recency = s.recency
  icache : t.icache = s.icache
  activeSeg : t.activeSeg = s.activeSeg
  cp1 : t.cp1 = s.cp1
  pipe : t.pipe = s.pipe
  coldReset : t.coldReset = s.coldReset
  countPhase : t.countPhase = s.countPhase
  params : t.params = s.params
  inputs : t.inputs = s.inputs

/-- Every byte of memory reads as before. -/
def SameBytes (s t : State) : Prop := ∀ a, memRead t.mem a = memRead s.mem a

/-- Memory and the data-cache bookkeeping unchanged. -/
structure SameMemory (s t : State) : Prop where
  bytes : SameBytes s t
  dirty : t.dDirty = s.dDirty
  maybe : t.dMaybe = s.dMaybe

/-- Execution goes on in sequence (R48, R440). -/
structure Sequential (s t : State) : Prop where
  pc : t.pc = nextPc s
  delay : t.delay = none

/-- A branch or jump: the delay slot next, then the target or the instruction behind the slot, and the slot killed when a
likely branch is not taken (R440, R443). -/
structure Branches (s t : State) (taken likely : Bool) (target : Word) : Prop where
  pc : t.pc = s.pc + 4#64
  delay : t.delay = some { next := if taken then target else s.pc + 8#64, killed := likely && !taken }

/-- An instruction whose only effects are the result `v` for `rd` and the advance of the pc. -/
structure GprOnly (s t : State) (rd : RegNo) (v : Word) : Prop where
  results : Results s t rd v s.hi s.lo s.llbit s.cp0
  rest : SameRest s t
  memory : SameMemory s t
  sequential : Sequential s t

/-- An instruction whose only effects are HI, LO and the advance of the pc. -/
structure HiLoOnly (s t : State) (hi lo : Word) : Prop where
  results : Results s t 0#5 0#64 hi lo s.llbit s.cp0
  rest : SameRest s t
  memory : SameMemory s t
  sequential : Sequential s t

/-- A branch or jump that writes only its link register (0: none). -/
structure BranchOnly (s t : State) (link : RegNo) (taken likely : Bool) (target : Word) : Prop where
  results : Results s t link (s.pc + 8#64) s.hi s.lo s.llbit s.cp0
  rest : SameRest s t
  memory : SameMemory s t
  branches : Branches s t taken likely target

/-- `exec` of the instruction answers a next state with the property. -/
def Completes (i : Instr) (s : State) (P : State → Prop) : Prop := ∃ t, exec i s = .next t ∧ P t

/-- `exec` of the instruction takes the exception, in the state before the instruction (R670). -/
def Takes (i : Instr) (s : State) (e : Exc) : Prop := exec i s = .next (takeException e s)

/-- `exec` of the instruction refuses by name. -/
def Refuses (i : Instr) (s : State) (r : Refusal) : Prop := exec i s = .refused r

/-! ## Conditions on the state alone -/

/-- A write of HI or LO is outside the window of R768, or the hazard policy is the program-order result. -/
def HiLoFree (s : State) : Prop := s.params.hiloHazard = .refuse → 2 < s.hz.hiloAge

/-- Byte `j` of a doubleword, byte 0 the most significant; bytes 4 to 7 are the word `v[31:0]`. -/
def byteOf (v : Word) (j : Nat) : Byte := v.extractLsb' (56 - 8 * j) 8

/-- A rule of the bus speaks of a request now: of its type, its width and one of its bytes, at this time (R9, R146, R244). -/
structure BusRange.Covers (r : BusRange) (now : Nat) (ty : ReqType) (a n : Nat) : Prop where
  typed : ty ∈ r.types
  sized : r.sizes = [] ∨ n ∈ r.sizes
  started : r.start ≤ now
  lasting : ∀ e, r.stop = some e → now < e
  above : r.base < a + n
  below : a < r.base + r.size

/-- The bus answers a request of the type, of `n` bytes at `a`, by a rule of the kind (R9, R146, R244). -/
def Touches (s : State) (ty : ReqType) (kind : BusKind) (a n : Nat) : Prop :=
  ∃ r ∈ s.inputs.busMap, r.kind = kind ∧ r.Covers s.inputs.busTime ty a n

/-- The pc can be fetched: aligned (R238), outside the CP0 hazard windows (R800), translated (R170), in the modelled byte
order (R140, R141), not just stored to (R252). -/
structure Fetchable (s : State) (seg : Segment) (pa : PAddr) (cached : Bool) : Prop where
  aligned : s.pc.extractLsb' 0 2 = 0#2
  hazard : cp0HazardAt s.hz s.pc = false
  translated : translate s.transCtx s.pc .fetch = .ok seg pa cached
  order : endianRefusal s.cp0 = none
  stored : storeHazardAt s.hz pa = false

/-- The four bytes of memory at a physical address, the lowest address first. -/
def bytesAt (s : State) (pa : PAddr) : List Byte :=
  [memRead s.mem pa.toNat, memRead s.mem (pa.toNat + 1), memRead s.mem (pa.toNat + 2), memRead s.mem (pa.toNat + 3)]

/-- No enabled interrupt is pending and the slot is not killed, so the fetched instruction runs (R443, R691). -/
def Runs (s : State) : Prop := intPending s.cp0 = false ∧ s.killed = false

/-! ## Data accesses -/

/-- The watch of R660: WatchHi.PAddr1 is 0, the doubleword of the address is WatchLo.PAddr0, and the bit for the kind of
access (bit 0, W, for a store, bit 1, R, for a load) is set. -/
def Watched (s : State) (pa : PAddr) (store : Bool) : Prop :=
  s.cp0.watchHi.extractLsb' 0 4 = 0#4 ∧ pa.toNat / 8 = s.cp0.watchLo.toNat / 8 ∧
    s.cp0.watchLo.getLsbD (if store then 0 else 1) = true

/-- The bookkeeping makes no refusal: a cached access has `va[12] = pa[12]` (R626), an uncached read finds its line not
dirty, an uncached write finds it in no cache line (R232). -/
structure Allowed (s : State) (store cached : Bool) (va : Word) (pa : PAddr) : Prop where
  alias12 : cached = true → va.getLsbD 12 = pa.getLsbD 12
  clean : cached = false → store = false → line16 pa ∉ s.dDirty
  absent : cached = false → store = true → line16 pa ∉ s.dMaybe

/-- Nothing stands in the way of the access of `op` at `va`, at the physical address `pa`: it is translated (R170), in the
modelled byte order (R140, R141), not watched (R660; no watch checks a CP1 access, R640), not refused by the bookkeeping
(R232, R626), answered by the bus (R146). -/
structure Unhindered (op : MemOp) (va : Word) (s : State) (pa : PAddr) (cached : Bool) : Prop where
  translated : ∃ seg, translate s.transCtx va op.kind = .ok seg pa cached
  order : endianRefusal s.cp0 = none
  unwatched : op.isCp1 = false → ¬ Watched s pa op.isStore
  booked : Allowed s op.isStore cached va pa
  answered : ¬ Touches s op.reqType .error (op.firstByte pa).toNat (op.byteCount pa)

/-- The access of `op` at `va` goes through: it is allowed (R275), aligned (R237), and nothing stands in its way. -/
structure Accessible (op : MemOp) (va : Word) (s : State) (pa : PAddr) (cached : Bool) : Prop
    extends Unhindered op va s pa cached where
  allowed : op.ops64 = true → ops64Allowed s.cp0.status = true
  aligned : va.toNat % op.alignment = 0

/-- The bytes a load at `pa` reads, as a number, the first byte most significant. -/
def loadedBytes (op : MemOp) (pa : PAddr) (s : State) : Nat :=
  s.busRead (op.firstByte pa).toNat (op.byteCount pa)

/-- Byte `j` of what the bus answers to a read of `n` bytes at `a`, the first byte most significant. -/
def answerByte (s : State) (a n j : Nat) : Byte := BitVec.ofNat 8 (s.busRead a n / 256 ^ (n - 1 - j))

/-- The bookkeeping after an access (R232): a cached access puts its line in DMaybe, a cached store also in DDirty, and
nothing else moves. -/
structure Booked (s t : State) (store cached : Bool) (pa : PAddr) : Prop where
  dirty : ∀ l, l ∈ t.dDirty ↔ l ∈ s.dDirty ∨ (cached = true ∧ store = true ∧ l = line16 pa)
  maybe : ∀ l, l ∈ t.dMaybe ↔ l ∈ s.dMaybe ∨ (cached = true ∧ l = line16 pa)

/-- A load whose only effects are the result for `rt`, the bookkeeping and the advance of the pc. -/
structure Loads (op : MemOp) (s t : State) (rt : RegNo) (pa : PAddr) (cached : Bool) (v : Word) : Prop where
  results : Results s t rt v s.hi s.lo s.llbit s.cp0
  rest : SameRest s t
  bytes : SameBytes s t
  booked : Booked s t op.isStore cached pa
  sequential : Sequential s t

/-- Memory after a store of the low `8 * n` bits of `v` at `a`, most significant byte first: those bytes hold it and every
other byte is unchanged (R13, R140). -/
structure StoredAt (s t : State) (a n v : Nat) : Prop where
  inside : ∀ i, i < n → memRead t.mem (a + i) = BitVec.ofNat 8 (v / 256 ^ (n - 1 - i))
  outside : ∀ x, (x < a ∨ a + n ≤ x) → memRead t.mem x = memRead s.mem x

/-- Memory after a write of the bus (R244): the bytes where there is plain memory, nothing where a ROM or a device takes the
write. -/
structure BusStored (s t : State) (a n v : Nat) : Prop where
  plain : ¬ Touches s .write .rom a n → ¬ Touches s .write .device a n → StoredAt s t a n v
  taken : Touches s .write .rom a n ∨ Touches s .write .device a n → SameBytes s t

/-- A store whose only effects are its bytes, the result for `rt` (0 for a plain store), the bookkeeping and the advance of
the pc; its window of R252 opens for the next two fetches. The address and the number of bytes are the operation's own. -/
structure Stores (op : MemOp) (s t : State) (rt : RegNo) (pa : PAddr) (cached : Bool) (v : Word) (result : Word) : Prop where
  results : Results s t rt result s.hi s.lo s.llbit s.cp0
  rest : SameRest s t
  stored : BusStored s t (op.firstByte pa).toNat (op.byteCount pa) (op.storeValue pa v).toNat
  window : t.hz.stores = { left := 2, addr := (op.firstByte pa).toNat, size := op.byteCount pa } :: s.hz.stores
  booked : Booked s t op.isStore cached pa
  sequential : Sequential s t

/-! ## CP0 instructions -/

/-- An instruction whose only effects are the CP0 registers `c` and the advance of the pc. -/
structure Cp0Only (s t : State) (c : Cp0) : Prop where
  results : Results s t 0#5 0#64 s.hi s.lo s.llbit c
  rest : SameRest s t
  memory : SameMemory s t
  sequential : Sequential s t

/-- Everything besides the TLB, the instruction cache and the CP0 registers as in `Cp0Only`. -/
structure SystemFrame (s t : State) : Prop where
  gpr : ∀ r, t.readReg r = s.readReg r
  hi : t.hi = s.hi
  lo : t.lo = s.lo
  llbit : t.llbit = s.llbit
  cp1 : t.cp1 = s.cp1
  pipe : t.pipe = s.pipe
  coldReset : t.coldReset = s.coldReset
  params : t.params = s.params
  inputs : t.inputs = s.inputs
  sequential : Sequential s t

end Sys2Proof.Machine
end

