-- ==== Sys2Proof/Certificates/Slice0/Obligations.lean ====
section
/-! DEFINITION. The statements for the provers, in the vocabulary of Safety.lean: what every instruction of the opcode table
leaves and leaves unchanged, when it completes, traps or is refused, and the rules of the spec about the whole machine. -/

open Sys2Proof Sys2Proof.Machine

/-! ## Reset, fetch and decoding -/

/-- R730, R731: with the cold-reset signal asserted a step, and a cycle, is the reset handler and nothing else; from power-on
it leaves `State.reset`, with the values the spec states and the parameters at their defaults (R9). The values the spec leaves
unspecified are the model's (log entries 1 to 4 and, for a bubble's other fields, 29), and so is that the handler's cycle leaves the inputs as they are: it uses up no
entry of the lists of line levels and invalidate-hits, and the bus's time does not advance (DESIGN CHOICE, log entries 5 and
16). -/
def Obligations.ColdResetHandler : Prop :=
  State.powerOn.coldReset = true ∧
  step State.powerOn = .next State.reset ∧
  State.reset.pc = 0xFFFFFFFFBFC00000#64 ∧ State.reset.cp0.random = 31#32 ∧ State.reset.cp0.wired = 0#32 ∧
  State.reset.llbit = false ∧ State.reset.coldReset = false ∧ State.reset.activeSeg = Segment.sentinel ∧
  State.reset.dDirty = [] ∧ State.reset.dMaybe = [] ∧ State.reset.pipe = Pipe.bubbles ∧
  State.reset.cp0.status &&& 0x08700004#32 = 0x00400004#32 ∧
  State.reset.cp0.config &&& 0xF0FFFFF0#32 = 0x7006E460#32 ∧
  State.reset.readReg 0#5 = 0#64 ∧
  State.reset.params = Params.mk (uncachedLatency := 50) (excEntryStall := 2) (refillLatency := 8) (cp1Present := false)
    (reservedPolicy := .raiseRI) (tlbMultimatch := .refuse) (randomPolicy := .draw) (hiloHazard := .refuse)
    (cp0HazardWindow := 3) (prid := 0x00000B22#32) (configEc := 7#3) (noopQuirks := false) ∧
  ∀ s : State, s.coldReset = true → ∃ t, step s = .next t ∧ cycle s = .next t ∧
    t.cp0 = { s.cp0 with
      status := (s.cp0.status &&& ~~~0x08300000#32) ||| 0x00400004#32
      config := (s.cp0.config &&& ~~~0xFFFF7FF0#32) ||| (s.params.configEc.setWidth 32 <<< 28) ||| 0x0006E460#32
      random := 31#32
      wired := 0#32 } ∧
    t.llbit = false ∧ t.dDirty = [] ∧ t.dMaybe = [] ∧ t.pipe = Pipe.bubbles ∧ t.activeSeg = Segment.sentinel ∧
    t.pc = 0xFFFFFFFFBFC00000#64 ∧ t.delay = none ∧ t.coldReset = false ∧
    t.gpr = s.gpr ∧ t.hi = s.hi ∧ t.lo = s.lo ∧ t.tlb = s.tlb ∧ t.icache = s.icache ∧ t.mem = s.mem ∧
    t.cp1 = s.cp1 ∧ t.countPhase = s.countPhase ∧ t.params = s.params ∧ t.inputs = s.inputs

/-- R823, R666: when the pc can be fetched and no interrupt is taken, one step runs what the decoder reads from the four
bytes there, in the state with the resolved segment (and the refilled line of a cached miss) and every hazard window one
instruction older. Where a device answers the fetch, its answer is decoded instead of memory (log entry 5). -/
def Obligations.StepRunsDecodedInstruction : Prop :=
  ∀ (s : State) (i : Instr) (seg : Segment) (pa : PAddr) (cached : Bool), s.coldReset = false →
    let b := beginStep s
    Fetchable b seg pa cached → Runs b →
    let f : State := { b with activeSeg := seg }
    let g := f.icFill b.pc pa
    let line := lineBase pa
    (cached = false → anyLine b.dDirty pa.toNat 4 = false → ¬ Touches b .read .error pa.toNat 4 →
      (¬ Touches b .read .device pa.toNat 4 → decodeBytes (bytesAt b pa) = some (.instr i, []) → step s = exec i f.age) ∧
      (Touches b .read .device pa.toNat 4 →
        step s = execDecoded (decode (BitVec.ofNat 32 (b.busRead pa.toNat 4))) (f.drew 4).age)) ∧
    (cached = true → b.fetchProbe b.pc pa = none → anyLine b.dDirty line 32 = false → ¬ Touches b .read .error line 32 →
      (¬ Touches b .read .device line 32 → decodeBytes (bytesAt b pa) = some (.instr i, []) → step s = exec i g.age) ∧
      (Touches b .read .device line 32 → step s = execDecoded (decode ((g.icLine b.pc).word pa)) g.age)) ∧
    (cached = true → ∀ l, b.fetchProbe b.pc pa = some l → decode (l.word pa) = .instr i → step s = exec i f.age)

/-- R271, R272, R276, R570: the reserved words are exactly those that land on a `RES` cell of R265 to R268, the must-be-zero
violations exactly those that match a row but for a non-zero zero field. A reserved word raises RI (under the default policy),
in the COP0 group CpU first when CP0 is not usable, and a must-be-zero violation is refused. That it is refused in every state,
before the CpU (R570) or RI (R275) of the row it matches, is the model's choice (log entry 23). -/
def Obligations.ReservedAndZeroFieldWords : Prop :=
  (∀ (w : Word32) (cop0 : Bool), decode w = .reserved cop0 ↔ ReservedWord w cop0) ∧
  (∀ w : Word32, decode w = .mustBeZero ↔ ZeroFieldWord w) ∧
  ∀ (s : State),
    (s.params.reservedPolicy = .raiseRI →
      execDecoded (.reserved false) s = .next (takeException .reserved s) ∧
      (cp0Usable s.cp0.status = true → execDecoded (.reserved true) s = .next (takeException .reserved s))) ∧
    (s.params.reservedPolicy = .refuse →
      execDecoded (.reserved false) s = .refused .reservedEncoding ∧
      (cp0Usable s.cp0.status = true → execDecoded (.reserved true) s = .refused .reservedEncoding)) ∧
    (cp0Usable s.cp0.status = false → execDecoded (.reserved true) s = .next (takeException (.copUnusable 0#2) s)) ∧
    execDecoded .mustBeZero s = .refused .mustBeZero

/-- R261 to R268: words written out from the encoding of each family decode to the instruction they stand for. -/
def Obligations.DecodesWrittenWords : Prop :=
  decode 0x00221820#32 = .instr (.add 3#5 1#5 2#5) ∧
  decode 0x2408FFFF#32 = .instr (.addiu 8#5 0#5 0xFFFF#16) ∧
  decode 0x000A4903#32 = .instr (.sra 9#5 10#5 4#5) ∧
  decode 0x00850018#32 = .instr (.mult 4#5 5#5) ∧
  decode 0x10220003#32 = .instr (.beq 1#5 2#5 3#16) ∧
  decode 0x0451FFFE#32 = .instr (.bgezal 2#5 0xFFFE#16) ∧
  decode 0x8C880010#32 = .instr (.lw 8#5 16#16 4#5) ∧
  decode 0xFC850008#32 = .instr (.sd 5#5 8#16 4#5) ∧
  decode 0x40886000#32 = .instr (.mtc0 8#5 12#5) ∧
  decode 0x42000018#32 = .instr .eret ∧
  decode 0xBC900000#32 = .instr (.cache 0x10#5 0#16 4#5) ∧
  decode 0x00220034#32 = .instr (.teq 1#5 2#5 0#10) ∧
  decode 0x44880000#32 = .instr (.cop1 0x0880000#26)

/-- R276: decoding the word of an instruction gives it back, with every operand at every value of its field. -/
def Obligations.DecodeEncode : Prop :=
  ∀ i : Instr, decode (encode i) = .instr i ∧ decodeBytes (wordBytes (encode i)) = some (.instr i, []) ∧
    decodeTableWord 32 (encode i).toNat = some i

/-- R276: each word has at most one meaning, and an instruction's word is its encoding. -/
def Obligations.EncodeDecode : Prop := ∀ (w : Word32) (i : Instr), decode w = .instr i → encode i = w

/-- R273: every value of a code field is legal and the hardware ignores it. -/
def Obligations.CodeFieldsIgnored : Prop :=
  (∀ c : BitVec 20, decode (0#6 ++ c ++ 0x0C#6) = .instr (.syscall c) ∧ decode (0#6 ++ c ++ 0x0D#6) = .instr (.break_ c)) ∧
  (∀ (rs rt : RegNo) (c : BitVec 10),
    decode (0#6 ++ rs ++ rt ++ c ++ 0x30#6) = .instr (.tge rs rt c) ∧
    decode (0#6 ++ rs ++ rt ++ c ++ 0x31#6) = .instr (.tgeu rs rt c) ∧
    decode (0#6 ++ rs ++ rt ++ c ++ 0x32#6) = .instr (.tlt rs rt c) ∧
    decode (0#6 ++ rs ++ rt ++ c ++ 0x33#6) = .instr (.tltu rs rt c) ∧
    decode (0#6 ++ rs ++ rt ++ c ++ 0x34#6) = .instr (.teq rs rt c) ∧
    decode (0#6 ++ rs ++ rt ++ c ++ 0x36#6) = .instr (.tne rs rt c)) ∧
  (∀ (s : State) (c d : BitVec 20),
    exec (.syscall c) s = exec (.syscall d) s ∧ exec (.break_ c) s = exec (.break_ d) s) ∧
  (∀ (s : State) (rs rt : RegNo) (c d : BitVec 10),
    exec (.tge rs rt c) s = exec (.tge rs rt d) s ∧ exec (.tgeu rs rt c) s = exec (.tgeu rs rt d) s ∧
    exec (.tlt rs rt c) s = exec (.tlt rs rt d) s ∧ exec (.tltu rs rt c) s = exec (.tltu rs rt d) s ∧
    exec (.teq rs rt c) s = exec (.teq rs rt d) s ∧ exec (.tne rs rt c) s = exec (.tne rs rt d) s)

/-! ## Invariants -/

/-- The invariant holds at reset. Memory's form and the window counter in it are the model's (log entries 5 and 8), and so are
the reset values the spec leaves open (log entries 1 to 5). -/
def Obligations.ResetHasInvariant : Prop := Inv State.reset ∧ Inv State.powerOn

/-- Every step keeps the invariant: canonical memory (R244), register 0 (R40), the reserved and hard-wired CP0 bits (R61 to
R86), DDirty inside DMaybe (R232). Memory's form and the window counter are the model's (log entries 5 and 8). -/
def Obligations.StepKeepsInvariant : Prop := ∀ s t : State, Inv s → step s = .next t → Inv t

/-- R40: register 0 reads 0 in every state and a write to it is discarded. -/
def Obligations.RegisterZero : Prop :=
  ∀ s : State, s.readReg 0#5 = 0#64 ∧ (∀ v, s.writeReg 0#5 v = s) ∧
    ∀ (i : Instr) (t : State), exec i s = .next t → t.readReg 0#5 = 0#64 ∧ t.gpr[0] = s.gpr[0]

/-! ## Integer instructions -/

/-- R311, R313, R315, R330 to R333, R340 to R347: the register and immediate forms that never trap, in every state. -/
def Obligations.WordAndLogicalResults : Prop :=
  ∀ (s : State) (rd rs rt : RegNo) (imm : BitVec 16),
    let a := s.readReg rs
    let b := s.readReg rt
    Completes (.addu rd rs rt) s (GprOnly s · rd (BitVec.signExtend 64 (lo32 a + lo32 b))) ∧
    Completes (.subu rd rs rt) s (GprOnly s · rd (BitVec.signExtend 64 (lo32 a - lo32 b))) ∧
    Completes (.slt rd rs rt) s (GprOnly s · rd (if a.toInt < b.toInt then 1#64 else 0#64)) ∧
    Completes (.sltu rd rs rt) s (GprOnly s · rd (if a.toNat < b.toNat then 1#64 else 0#64)) ∧
    Completes (.and_ rd rs rt) s (GprOnly s · rd (a &&& b)) ∧
    Completes (.or_ rd rs rt) s (GprOnly s · rd (a ||| b)) ∧
    Completes (.xor_ rd rs rt) s (GprOnly s · rd (a ^^^ b)) ∧
    Completes (.nor_ rd rs rt) s (GprOnly s · rd (~~~(a ||| b))) ∧
    Completes (.addiu rd rs imm) s (GprOnly s · rd (BitVec.signExtend 64 (lo32 a + BitVec.ofInt 32 imm.toInt))) ∧
    Completes (.slti rd rs imm) s (GprOnly s · rd (if a.toInt < imm.toInt then 1#64 else 0#64)) ∧
    Completes (.sltiu rd rs imm) s
      (GprOnly s · rd (if a.toNat < (BitVec.ofInt 64 imm.toInt).toNat then 1#64 else 0#64)) ∧
    Completes (.andi rd rs imm) s (GprOnly s · rd (a &&& BitVec.ofNat 64 imm.toNat)) ∧
    Completes (.ori rd rs imm) s (GprOnly s · rd (a ||| BitVec.ofNat 64 imm.toNat)) ∧
    Completes (.xori rd rs imm) s (GprOnly s · rd (a ^^^ BitVec.ofNat 64 imm.toNat)) ∧
    Completes (.lui rd imm) s (GprOnly s · rd (BitVec.ofInt 64 (imm.toInt * 65536)))

/-- R302, R304, R310, R312, R314: ADD, SUB and ADDI of sign-extended words give the exact integer result when it fits 32
bits and raise Overflow when it does not; another operand is refused. -/
def Obligations.TrappingWordResults : Prop :=
  ∀ (s : State) (rd rs rt : RegNo) (imm : BitVec 16),
    let a := s.readReg rs
    let b := s.readReg rt
    let fits := fun t : Int => -(2 ^ 31) ≤ t ∧ t < 2 ^ 31
    (sx32 a = true → sx32 b = true →
      (fits (a.toInt + b.toInt) →
        Completes (.add rd rs rt) s (GprOnly s · rd (BitVec.ofInt 64 (a.toInt + b.toInt)))) ∧
      (¬ fits (a.toInt + b.toInt) → Takes (.add rd rs rt) s .overflow) ∧
      (fits (a.toInt - b.toInt) →
        Completes (.sub rd rs rt) s (GprOnly s · rd (BitVec.ofInt 64 (a.toInt - b.toInt)))) ∧
      (¬ fits (a.toInt - b.toInt) → Takes (.sub rd rs rt) s .overflow)) ∧
    (sx32 a = true →
      (fits (a.toInt + imm.toInt) →
        Completes (.addi rd rs imm) s (GprOnly s · rd (BitVec.ofInt 64 (a.toInt + imm.toInt)))) ∧
      (¬ fits (a.toInt + imm.toInt) → Takes (.addi rd rs imm) s .overflow)) ∧
    (sx32 a = false → Refuses (.addi rd rs imm) s .nonSignExtendedWord) ∧
    (sx32 a = false ∨ sx32 b = false →
      Refuses (.add rd rs rt) s .nonSignExtendedWord ∧ Refuses (.sub rd rs rt) s .nonSignExtendedWord)

/-- R304, R316 to R321: DADD, DSUB and DADDI are exact or raise Overflow; DADDU, DSUBU and DADDIU wrap modulo 2^64. -/
def Obligations.DoublewordArithmeticResults : Prop :=
  ∀ (s : State) (rd rs rt : RegNo) (imm : BitVec 16), ops64Allowed s.cp0.status = true →
    let a := (s.readReg rs).toInt
    let b := (s.readReg rt).toInt
    let fits := fun t : Int => -(2 ^ 63) ≤ t ∧ t < 2 ^ 63
    (fits (a + b) → Completes (.dadd rd rs rt) s (GprOnly s · rd (BitVec.ofInt 64 (a + b)))) ∧
    (¬ fits (a + b) → Takes (.dadd rd rs rt) s .overflow) ∧
    (fits (a - b) → Completes (.dsub rd rs rt) s (GprOnly s · rd (BitVec.ofInt 64 (a - b)))) ∧
    (¬ fits (a - b) → Takes (.dsub rd rs rt) s .overflow) ∧
    (fits (a + imm.toInt) → Completes (.daddi rd rs imm) s (GprOnly s · rd (BitVec.ofInt 64 (a + imm.toInt)))) ∧
    (¬ fits (a + imm.toInt) → Takes (.daddi rd rs imm) s .overflow) ∧
    Completes (.daddu rd rs rt) s (GprOnly s · rd (BitVec.ofInt 64 (a + b))) ∧
    Completes (.dsubu rd rs rt) s (GprOnly s · rd (BitVec.ofInt 64 (a - b))) ∧
    Completes (.daddiu rd rs imm) s (GprOnly s · rd (BitVec.ofInt 64 (a + imm.toInt)))

/-- R302, R350 to R355: the word shifts; the right shifts refuse a value that is not sign-extended. -/
def Obligations.WordShiftResults : Prop :=
  ∀ (s : State) (rd rt rs : RegNo) (sa : BitVec 5),
    let v := s.readReg rt
    let n := (s.readReg rs).toNat % 32
    Completes (.sll rd rt sa) s (GprOnly s · rd (BitVec.signExtend 64 (lo32 v <<< sa.toNat))) ∧
    Completes (.sllv rd rt rs) s (GprOnly s · rd (BitVec.signExtend 64 (lo32 v <<< n))) ∧
    (sx32 v = true →
      Completes (.srl rd rt sa) s (GprOnly s · rd (BitVec.signExtend 64 (lo32 v >>> sa.toNat))) ∧
      Completes (.srlv rd rt rs) s (GprOnly s · rd (BitVec.signExtend 64 (lo32 v >>> n))) ∧
      Completes (.sra rd rt sa) s (GprOnly s · rd (BitVec.ofInt 64 (v.toInt / 2 ^ sa.toNat))) ∧
      Completes (.srav rd rt rs) s (GprOnly s · rd (BitVec.ofInt 64 (v.toInt / 2 ^ n)))) ∧
    (sx32 v = false →
      Refuses (.srl rd rt sa) s .nonSignExtendedWord ∧ Refuses (.srlv rd rt rs) s .nonSignExtendedWord ∧
      Refuses (.sra rd rt sa) s .nonSignExtendedWord ∧ Refuses (.srav rd rt rs) s .nonSignExtendedWord)

/-- R356 to R364: the doubleword shifts, logical left, logical right and arithmetic right. -/
def Obligations.DoublewordShiftResults : Prop :=
  ∀ (s : State) (rd rt rs : RegNo) (sa : BitVec 5), ops64Allowed s.cp0.status = true →
    let v := s.readReg rt
    let n := (s.readReg rs).toNat % 64
    let left := fun k : Nat => BitVec.ofNat 64 (v.toNat * 2 ^ k)
    let right := fun k : Nat => BitVec.ofNat 64 (v.toNat / 2 ^ k)
    let arith := fun k : Nat => BitVec.ofInt 64 (v.toInt / 2 ^ k)
    Completes (.dsll rd rt sa) s (GprOnly s · rd (left sa.toNat)) ∧
    Completes (.dsrl rd rt sa) s (GprOnly s · rd (right sa.toNat)) ∧
    Completes (.dsra rd rt sa) s (GprOnly s · rd (arith sa.toNat)) ∧
    Completes (.dsll32 rd rt sa) s (GprOnly s · rd (left (sa.toNat + 32))) ∧
    Completes (.dsrl32 rd rt sa) s (GprOnly s · rd (right (sa.toNat + 32))) ∧
    Completes (.dsra32 rd rt sa) s (GprOnly s · rd (arith (sa.toNat + 32))) ∧
    Completes (.dsllv rd rt rs) s (GprOnly s · rd (left n)) ∧
    Completes (.dsrlv rd rt rs) s (GprOnly s · rd (right n)) ∧
    Completes (.dsrav rd rt rs) s (GprOnly s · rd (arith n))

/-- R401, R410 to R413: HI and LO are the halves of the exact product; a word operand that is not sign-extended is refused. -/
def Obligations.MultiplyResults : Prop :=
  ∀ (s : State) (rs rt : RegNo), HiLoFree s →
    let a := s.readReg rs
    let b := s.readReg rt
    let word := fun p : Int => BitVec.signExtend 64 (BitVec.ofInt 32 p)
    (sx32 a = true → sx32 b = true →
      (let p := a.toInt * b.toInt
       Completes (.mult rs rt) s (HiLoOnly s · (word (p / 2 ^ 32)) (word p))) ∧
      (let p : Int := (a.toNat % 2 ^ 32 * (b.toNat % 2 ^ 32) : Nat)
       Completes (.multu rs rt) s (HiLoOnly s · (word (p / 2 ^ 32)) (word p)))) ∧
    (sx32 a = false ∨ sx32 b = false →
      Refuses (.mult rs rt) s .nonSignExtendedWord ∧ Refuses (.multu rs rt) s .nonSignExtendedWord) ∧
    (ops64Allowed s.cp0.status = true →
      (let p := a.toInt * b.toInt
       Completes (.dmult rs rt) s (HiLoOnly s · (BitVec.ofInt 64 (p / 2 ^ 64)) (BitVec.ofInt 64 p))) ∧
      (let p : Int := (a.toNat * b.toNat : Nat)
       Completes (.dmultu rs rt) s (HiLoOnly s · (BitVec.ofInt 64 (p / 2 ^ 64)) (BitVec.ofInt 64 p))))

/-- R403, R420 to R423: for a non-zero divisor the quotient truncates toward zero and the remainder keeps the dividend's
sign, both cut to the width, so that the most negative value by -1 wraps with remainder 0. -/
def Obligations.DivideResults : Prop :=
  ∀ (s : State) (rs rt : RegNo), HiLoFree s →
    let a := s.readReg rs
    let b := s.readReg rt
    let word := fun p : Int => BitVec.signExtend 64 (BitVec.ofInt 32 p)
    let signedParts := fun (n d q r : Int) =>
      n = q * d + r ∧ r.natAbs < d.natAbs ∧ (r = 0 ∨ (0 < r ↔ 0 < n)) ∧ (0 ≤ n → 0 ≤ r) ∧ (n ≤ 0 → r ≤ 0)
    (sx32 a = true → sx32 b = true → lo32 b ≠ 0#32 →
      (∃ q r, signedParts a.toInt b.toInt q r ∧ Completes (.div rs rt) s (HiLoOnly s · (word r) (word q))) ∧
      (let n := a.toNat % 2 ^ 32
       let d := b.toNat % 2 ^ 32
       Completes (.divu rs rt) s (HiLoOnly s · (word (n % d : Nat)) (word (n / d : Nat))))) ∧
    (sx32 a = false ∨ sx32 b = false →
      Refuses (.div rs rt) s .nonSignExtendedWord ∧ Refuses (.divu rs rt) s .nonSignExtendedWord) ∧
    (ops64Allowed s.cp0.status = true → b ≠ 0#64 →
      (∃ q r, signedParts a.toInt b.toInt q r ∧
        Completes (.ddiv rs rt) s (HiLoOnly s · (BitVec.ofInt 64 r) (BitVec.ofInt 64 q))) ∧
      Completes (.ddivu rs rt) s
        (HiLoOnly s · (BitVec.ofNat 64 (a.toNat % b.toNat)) (BitVec.ofNat 64 (a.toNat / b.toNat))))

/-- R402: a divide whose divisor is 0 raises nothing and leaves HI and LO free values. The statement holds whatever values
the two draws have. -/
def Obligations.DivideByZeroDraws : Prop :=
  ∀ (s : State) (rs rt : RegNo), HiLoFree s →
    (sx32 (s.readReg rs) = true → s.readReg rt = 0#64 →
      Completes (.div rs rt) s (HiLoOnly s · (Config.draw s.draws) (Config.draw (s.draws + 1))) ∧
      Completes (.divu rs rt) s (HiLoOnly s · (Config.draw s.draws) (Config.draw (s.draws + 1)))) ∧
    (ops64Allowed s.cp0.status = true → s.readReg rt = 0#64 →
      Completes (.ddiv rs rt) s (HiLoOnly s · (Config.draw s.draws) (Config.draw (s.draws + 1))) ∧
      Completes (.ddivu rs rt) s (HiLoOnly s · (Config.draw s.draws) (Config.draw (s.draws + 1))))

/-- R430 to R433, R560, R768: the moves from and to HI and LO; SYNC does nothing but go on. With `HILO_HAZARD = refuse`
every writer of HI and LO is refused while it is the first or second instruction after an MFHI or MFLO. Which instructions
count there, those that complete, is the model's choice (log entry 8). -/
def Obligations.HiLoMovesAndSync : Prop :=
  ∀ (s : State) (r q : RegNo),
    Completes .sync s (GprOnly s · 0#5 0#64) ∧
    Completes (.mfhi r) s (fun t => GprOnly s t r s.hi ∧ t.hz.hiloAge = 1) ∧
    Completes (.mflo r) s (fun t => GprOnly s t r s.lo ∧ t.hz.hiloAge = 1) ∧
    (HiLoFree s →
      Completes (.mthi r) s (HiLoOnly s · (s.readReg r) s.lo) ∧
      Completes (.mtlo r) s (HiLoOnly s · s.hi (s.readReg r))) ∧
    (s.params.hiloHazard = .refuse → s.hz.hiloAge ≤ 2 →
      (∀ i ∈ [Instr.mthi r, .mtlo r], Refuses i s .hiloHazard) ∧
      (sx32 (s.readReg r) = true → sx32 (s.readReg q) = true →
        ∀ i ∈ [Instr.mult r q, .multu r q, .div r q, .divu r q], Refuses i s .hiloHazard) ∧
      (ops64Allowed s.cp0.status = true →
        ∀ i ∈ [Instr.dmult r q, .dmultu r q, .ddiv r q, .ddivu r q], Refuses i s .hiloHazard)) ∧
    (∀ (i : Instr) (t : State), exec i s = .next t → (∀ n, i ≠ .mfhi n ∧ i ≠ .mflo n) →
      t.hz.hiloAge = min 3 (s.hz.hiloAge + 1) ∨
      (t.hz.hiloAge = s.hz.hiloAge ∧ ∃ (e : Exc) (u : State), t = takeException e u))

/-- R275: the 64-bit operations raise RI where they are not allowed, which is in user mode with UX = 0 and in supervisor
mode with SX = 0; in kernel mode they are always legal. R570, R576, R578: DMFC0 and DMTC0 raise CpU where CP0 is not usable and
then RI where 64-bit operations are not allowed. -/
def Obligations.Ops64NotAllowed : Prop :=
  (∀ st : Word32, kernelMode st = true → ops64Allowed st = true) ∧
  (∀ st : Word32, userMode st = true → ops64Allowed st = stUX st) ∧
  (∀ st : Word32, supervisorMode st = true → ops64Allowed st = stSX st) ∧
  ∀ (s : State) (rd rs rt : RegNo) (sa : BitVec 5) (imm : BitVec 16), ops64Allowed s.cp0.status = false →
    (∀ i ∈ [Instr.daddi rt rs imm, .daddiu rt rs imm, .dadd rd rs rt, .daddu rd rs rt, .dsub rd rs rt, .dsubu rd rs rt,
        .dsll rd rt sa, .dsrl rd rt sa, .dsra rd rt sa, .dsll32 rd rt sa, .dsrl32 rd rt sa, .dsra32 rd rt sa,
        .dsllv rd rt rs, .dsrlv rd rt rs, .dsrav rd rt rs, .dmult rs rt, .dmultu rs rt, .ddiv rs rt, .ddivu rs rt,
        .ld rt imm rs, .sd rt imm rs, .ldl rt imm rs, .ldr rt imm rs, .sdl rt imm rs, .sdr rt imm rs, .lld rt imm rs,
        .scd rt imm rs, .lwu rt imm rs], Takes i s .reserved) ∧
    (cp0Usable s.cp0.status = true → Takes (.dmfc0 rt rd) s .reserved ∧ Takes (.dmtc0 rt rd) s .reserved) ∧
    (cp0Usable s.cp0.status = false →
      Takes (.dmfc0 rt rd) s (.copUnusable 0#2) ∧ Takes (.dmtc0 rt rd) s (.copUnusable 0#2))

/-! ## Jumps and branches -/

/-- R441, R442, R450 to R453, R474 to R477: the jumps and the linking branches. The target of J and JAL lies in the 256 MB
region of the delay slot; the linking branches write register 31 whether or not they are taken; JALR with `rd = rs` and a
linking branch on register 31 are refused. -/
def Obligations.JumpAndLinkResults : Prop :=
  ∀ (s : State) (target : BitVec 26) (rd rs : RegNo) (imm : BitVec 16), s.delay = none →
    let region := ((s.pc + 4#64) &&& ~~~0x0FFFFFFF#64) ||| (target.setWidth 64 <<< 2)
    let a := (s.readReg rs).toInt
    let branch := BitVec.ofInt 64 (s.pc.toInt + 4 + 4 * imm.toInt)
    Completes (.j target) s (BranchOnly s · 0#5 true false region) ∧
    Completes (.jal target) s (BranchOnly s · 31#5 true false region) ∧
    Completes (.jr rs) s (BranchOnly s · 0#5 true false (s.readReg rs)) ∧
    (rd ≠ rs → Completes (.jalr rd rs) s (BranchOnly s · rd true false (s.readReg rs))) ∧
    (rd = rs → Refuses (.jalr rd rs) s .jalrSameRegister) ∧
    (rs ≠ 31#5 →
      Completes (.bltzal rs imm) s (BranchOnly s · 31#5 (decide (a < 0)) false branch) ∧
      Completes (.bgezal rs imm) s (BranchOnly s · 31#5 (decide (0 ≤ a)) false branch) ∧
      Completes (.bltzall rs imm) s (BranchOnly s · 31#5 (decide (a < 0)) true branch) ∧
      Completes (.bgezall rs imm) s (BranchOnly s · 31#5 (decide (0 ≤ a)) true branch)) ∧
    (rs = 31#5 →
      Refuses (.bltzal rs imm) s .linkBranchReadsR31 ∧ Refuses (.bgezal rs imm) s .linkBranchReadsR31 ∧
      Refuses (.bltzall rs imm) s .linkBranchReadsR31 ∧ Refuses (.bgezall rs imm) s .linkBranchReadsR31)

/-- R441, R443, R447, R460 to R467, R470 to R473: the conditional branches, taken or not; a likely branch kills its slot when
not taken. -/
def Obligations.ConditionalBranchResults : Prop :=
  ∀ (s : State) (rs rt : RegNo) (imm : BitVec 16), s.delay = none →
    let a := (s.readReg rs).toInt
    let b := (s.readReg rt).toInt
    let target := BitVec.ofInt 64 (s.pc.toInt + 4 + 4 * imm.toInt)
    Completes (.beq rs rt imm) s (BranchOnly s · 0#5 (decide (a = b)) false target) ∧
    Completes (.bne rs rt imm) s (BranchOnly s · 0#5 (decide (a ≠ b)) false target) ∧
    Completes (.blez rs imm) s (BranchOnly s · 0#5 (decide (a ≤ 0)) false target) ∧
    Completes (.bgtz rs imm) s (BranchOnly s · 0#5 (decide (0 < a)) false target) ∧
    Completes (.bltz rs imm) s (BranchOnly s · 0#5 (decide (a < 0)) false target) ∧
    Completes (.bgez rs imm) s (BranchOnly s · 0#5 (decide (0 ≤ a)) false target) ∧
    Completes (.beql rs rt imm) s (BranchOnly s · 0#5 (decide (a = b)) true target) ∧
    Completes (.bnel rs rt imm) s (BranchOnly s · 0#5 (decide (a ≠ b)) true target) ∧
    Completes (.blezl rs imm) s (BranchOnly s · 0#5 (decide (a ≤ 0)) true target) ∧
    Completes (.bgtzl rs imm) s (BranchOnly s · 0#5 (decide (0 < a)) true target) ∧
    Completes (.bltzl rs imm) s (BranchOnly s · 0#5 (decide (a < 0)) true target) ∧
    Completes (.bgezl rs imm) s (BranchOnly s · 0#5 (decide (0 ≤ a)) true target)

/-- R446: a branch or jump in a delay slot, a branch on the CP1 condition among them, and ERET in one, is refused. That JALR
with `rd = rs` and a linking branch on register 31 keep their own refusal there is the model's ranking of two refusals that
R446, R453 and R474 leave unranked, as is that the CP1 checks come first (DESIGN CHOICE, log entries 13 and 23). That the branches
on the CP1 condition are sub-opcode 8 with its four conditions is the model's presumption (PRESUMED, log entry 9). -/
def Obligations.BranchInDelaySlotRefused : Prop :=
  ∀ (s : State) (d : DelaySlot) (target : BitVec 26) (rd rs rt : RegNo) (imm : BitVec 16) (nd tf : Bool), s.delay = some d →
    (∀ i ∈ [Instr.j target, .jal target, .jr rs, .beq rs rt imm, .bne rs rt imm, .blez rs imm, .bgtz rs imm,
        .beql rs rt imm, .bnel rs rt imm, .blezl rs imm, .bgtzl rs imm, .bltz rs imm, .bgez rs imm, .bltzl rs imm,
        .bgezl rs imm], Refuses i s .branchInDelaySlot) ∧
    (rd ≠ rs → Refuses (.jalr rd rs) s .branchInDelaySlot) ∧
    (rs ≠ 31#5 → ∀ i ∈ [Instr.bltzal rs imm, .bgezal rs imm, .bltzall rs imm, .bgezall rs imm],
      Refuses i s .branchInDelaySlot) ∧
    (cp0Usable s.cp0.status = true → Refuses .eret s .branchInDelaySlot) ∧
    (s.cp0.status.getLsbD 29 = true → s.params.cp1Present = true →
      Refuses (.cop1 (0x08#5 ++ (0#3 ++ BitVec.ofBool nd ++ BitVec.ofBool tf) ++ imm)) s .branchInDelaySlot) ∧
    (rd = rs → Refuses (.jalr rd rs) s .jalrSameRegister) ∧
    (rs = 31#5 → ∀ i ∈ [Instr.bltzal rs imm, .bgezal rs imm, .bltzall rs imm, .bgezall rs imm],
      Refuses i s .linkBranchReadsR31)

/-- R443, R445: in a killed delay slot a fetch exception is still taken, and otherwise the slot has no effect, whatever its
word: no exception of its execution, and execution goes on behind the branch. -/
def Obligations.KilledDelaySlot : Prop :=
  ∀ s : State, s.coldReset = false →
    let b := beginStep s
    b.killed = true →
    (∀ e, fetch b = .raise e → step s = .next (takeException e b)) ∧
    (∀ w f, fetch b = .word w f → intPending f.cp0 = false → ∃ t, step s = .next t ∧ GprOnly f.age t 0#5 0#64)

/-! ## Loads and stores -/

/-- R510 to R516: the aligned loads, where the access goes through, of what the bus answers (memory, but where a device
answers: MixedWidths). -/
def Obligations.AlignedLoadResults : Prop :=
  ∀ (s : State) (rt : RegNo) (offset : BitVec 16) (base : RegNo) (pa : PAddr) (cached : Bool),
    let va := s.readReg base + BitVec.ofInt 64 offset.toInt
    let signed := fun (n : Nat) => BitVec.signExtend 64 (BitVec.ofNat n (s.busRead pa.toNat (n / 8)))
    let unsigned := fun (n : Nat) => BitVec.ofNat 64 (s.busRead pa.toNat n)
    (Accessible .lb va s pa cached → Completes (.lb rt offset base) s (Loads .lb s · rt pa cached (signed 8))) ∧
    (Accessible .lbu va s pa cached → Completes (.lbu rt offset base) s (Loads .lbu s · rt pa cached (unsigned 1))) ∧
    (Accessible .lh va s pa cached → Completes (.lh rt offset base) s (Loads .lh s · rt pa cached (signed 16))) ∧
    (Accessible .lhu va s pa cached → Completes (.lhu rt offset base) s (Loads .lhu s · rt pa cached (unsigned 2))) ∧
    (Accessible .lw va s pa cached → Completes (.lw rt offset base) s (Loads .lw s · rt pa cached (signed 32))) ∧
    (Accessible .lwu va s pa cached → Completes (.lwu rt offset base) s (Loads .lwu s · rt pa cached (unsigned 4))) ∧
    (Accessible .ld va s pa cached → Completes (.ld rt offset base) s (Loads .ld s · rt pa cached (unsigned 8)))

/-- R520 to R524: the partial-word loads, byte by byte: which bytes of the register come from the bytes of the aligned unit the
bus answers, and which stay. That the bus is asked for just the bytes that are read is the model's choice (log entry 5). -/
def Obligations.PartialLoadResults : Prop :=
  ∀ (s : State) (rt : RegNo) (offset : BitVec 16) (base : RegNo) (pa : PAddr) (cached : Bool),
    let va := s.readReg base + BitVec.ofInt 64 offset.toInt
    let old := s.readReg rt
    let k := pa.toNat % 4
    let k8 := pa.toNat % 8
    (Accessible .lwl va s pa cached → ∃ v, Completes (.lwl rt offset base) s (Loads .lwl s · rt pa cached v) ∧
      sx32 v = true ∧
      ∀ j, j < 4 → byteOf v (4 + j) = if j < 4 - k then answerByte s pa.toNat (4 - k) j else byteOf old (4 + j)) ∧
    (Accessible .lwr va s pa cached → ∃ v, Completes (.lwr rt offset base) s (Loads .lwr s · rt pa cached v) ∧
      sx32 v = true ∧
      ∀ j, j < 4 → byteOf v (4 + j) = if j < 3 - k then byteOf old (4 + j) else answerByte s (pa.toNat - k) (k + 1) (j - (3 - k))) ∧
    (Accessible .ldl va s pa cached → ∃ v, Completes (.ldl rt offset base) s (Loads .ldl s · rt pa cached v) ∧
      ∀ j, j < 8 → byteOf v j = if j < 8 - k8 then answerByte s pa.toNat (8 - k8) j else byteOf old j) ∧
    (Accessible .ldr va s pa cached → ∃ v, Completes (.ldr rt offset base) s (Loads .ldr s · rt pa cached v) ∧
      ∀ j, j < 8 → byteOf v j = if j < 7 - k8 then byteOf old j else answerByte s (pa.toNat - k8) (k8 + 1) (j - (7 - k8)))

/-- R530 to R533: the aligned stores, where the access goes through: their bytes at the access's own address, most
significant first, and every other byte of memory unchanged. That no byte changes where a ROM or a device takes the write is the
model's choice, R244 leaving the map to the platform (DESIGN CHOICE, log entry 5). -/
def Obligations.AlignedStoreResults : Prop :=
  ∀ (s : State) (rt : RegNo) (offset : BitVec 16) (base : RegNo) (pa : PAddr) (cached : Bool), Memory.wf s.mem = true →
    let va := s.readReg base + BitVec.ofInt 64 offset.toInt
    let v := s.readReg rt
    (Accessible .sb va s pa cached → Completes (.sb rt offset base) s
      (fun t => Stores .sb s t 0#5 pa cached v 0#64 ∧ BusStored s t pa.toNat 1 v.toNat)) ∧
    (Accessible .sh va s pa cached → Completes (.sh rt offset base) s
      (fun t => Stores .sh s t 0#5 pa cached v 0#64 ∧ BusStored s t pa.toNat 2 v.toNat)) ∧
    (Accessible .sw va s pa cached → Completes (.sw rt offset base) s
      (fun t => Stores .sw s t 0#5 pa cached v 0#64 ∧ BusStored s t pa.toNat 4 v.toNat)) ∧
    (Accessible .sd va s pa cached → Completes (.sd rt offset base) s
      (fun t => Stores .sd s t 0#5 pa cached v 0#64 ∧ BusStored s t pa.toNat 8 v.toNat))

/-- R520, R534 to R537: the partial-word stores, byte by byte; every byte they do not name is unchanged. That no
byte changes where a ROM or a device takes the write, which `Stores` says, is the model's choice, R244 leaving the map to the
platform (DESIGN CHOICE, log entry 5). -/
def Obligations.PartialStoreResults : Prop :=
  ∀ (s : State) (rt : RegNo) (offset : BitVec 16) (base : RegNo) (pa : PAddr) (cached : Bool), Memory.wf s.mem = true →
    let va := s.readReg base + BitVec.ofInt 64 offset.toInt
    let v := s.readReg rt
    let k := pa.toNat % 4
    let k8 := pa.toNat % 8
    let plain := fun (a n : Nat) => ¬ Touches s .write .rom a n ∧ ¬ Touches s .write .device a n
    (Accessible .swl va s pa cached → Completes (.swl rt offset base) s (fun t =>
      Stores .swl s t 0#5 pa cached v 0#64 ∧ (plain pa.toNat (4 - k) →
      (∀ j, j < 4 - k → memRead t.mem (pa.toNat + j) = byteOf v (4 + j)) ∧
      ∀ x, (x < pa.toNat ∨ pa.toNat - k + 4 ≤ x) → memRead t.mem x = memRead s.mem x))) ∧
    (Accessible .swr va s pa cached → Completes (.swr rt offset base) s (fun t =>
      Stores .swr s t 0#5 pa cached v 0#64 ∧ (plain (pa.toNat - k) (k + 1) →
      (∀ j, j ≤ k → memRead t.mem (pa.toNat - j) = byteOf v (7 - j)) ∧
      ∀ x, (x < pa.toNat - k ∨ pa.toNat < x) → memRead t.mem x = memRead s.mem x))) ∧
    (Accessible .sdl va s pa cached → Completes (.sdl rt offset base) s (fun t =>
      Stores .sdl s t 0#5 pa cached v 0#64 ∧ (plain pa.toNat (8 - k8) →
      (∀ j, j < 8 - k8 → memRead t.mem (pa.toNat + j) = byteOf v j) ∧
      ∀ x, (x < pa.toNat ∨ pa.toNat - k8 + 8 ≤ x) → memRead t.mem x = memRead s.mem x))) ∧
    (Accessible .sdr va s pa cached → Completes (.sdr rt offset base) s (fun t =>
      Stores .sdr s t 0#5 pa cached v 0#64 ∧ (plain (pa.toNat - k8) (k8 + 1) →
      (∀ j, j ≤ k8 → memRead t.mem (pa.toNat - j) = byteOf v (7 - j)) ∧
      ∀ x, (x < pa.toNat - k8 ∨ pa.toNat < x) → memRead t.mem x = memRead s.mem x)))

/-- R540, R541, R543, R544: LL and LLD load, set LLbit and put `pa >> 4` in LLAddr; SC and SCD store and answer 1 while
LLbit is 1, answer 0 without an access while it is 0, and leave it alone. That no byte changes where a ROM or a device takes the
write is the model's choice (DESIGN CHOICE, log entry 5). -/
def Obligations.LinkedAndConditionalResults : Prop :=
  ∀ (s : State) (rt : RegNo) (offset : BitVec 16) (base : RegNo) (pa : PAddr) (cached : Bool),
    let va := s.readReg base + BitVec.ofInt 64 offset.toInt
    let v := s.readReg rt
    let linked := { s.cp0 with llAddr := pa >>> 4 }
    (Accessible .ll va s pa cached → Completes (.ll rt offset base) s (fun t =>
      Results s t rt (BitVec.signExtend 64 (BitVec.ofNat 32 (s.busRead pa.toNat 4))) s.hi s.lo true linked ∧
      SameRest s t ∧ SameBytes s t ∧ Booked s t false cached pa ∧ Sequential s t)) ∧
    (Accessible .lld va s pa cached → Completes (.lld rt offset base) s (fun t =>
      Results s t rt (BitVec.ofNat 64 (s.busRead pa.toNat 8)) s.hi s.lo true linked ∧
      SameRest s t ∧ SameBytes s t ∧ Booked s t false cached pa ∧ Sequential s t)) ∧
    (s.llbit = true → Memory.wf s.mem = true →
      (Accessible .sc va s pa cached → Completes (.sc rt offset base) s
        (fun t => Stores .sc s t rt pa cached v 1#64 ∧ BusStored s t pa.toNat 4 v.toNat)) ∧
      (Accessible .scd va s pa cached → Completes (.scd rt offset base) s
        (fun t => Stores .scd s t rt pa cached v 1#64 ∧ BusStored s t pa.toNat 8 v.toNat))) ∧
    (s.llbit = false → ∀ seg, translate s.transCtx va .store = .ok seg pa cached → endianRefusal s.cp0 = none →
      (va.toNat % 4 = 0 → Completes (.sc rt offset base) s (GprOnly s · rt 0#64)) ∧
      (va.toNat % 8 = 0 → ops64Allowed s.cp0.status = true →
        Completes (.scd rt offset base) s (GprOnly s · rt 0#64)))

/-- R237: a data access of size 2, 4 or 8 by these instructions at a misaligned address raises Address Error, AdEL for a
load and AdES for a store, with the address in BadVAddr; the byte and the partial-word forms have no alignment requirement
and go through at every address. -/
def Obligations.AlignmentRule : Prop :=
  ∀ (s : State) (rt : RegNo) (offset : BitVec 16) (base : RegNo),
    let va := s.readReg base + BitVec.ofInt 64 offset.toInt
    let raises := fun (i : Instr) (kind : AccessKind) (code : BitVec 5) =>
      Takes i s (.addrError kind va) ∧ (takeException (.addrError kind va) s).cp0.badVAddr = va ∧
        (takeException (.addrError kind va) s).cp0.cause.extractLsb' 2 5 = code
    (va.toNat % 2 ≠ 0 → (∀ i ∈ [Instr.lh rt offset base, .lhu rt offset base], raises i .load 4#5) ∧
      raises (.sh rt offset base) .store 5#5) ∧
    (va.toNat % 4 ≠ 0 →
      (∀ i ∈ [Instr.lw rt offset base, .ll rt offset base], raises i .load 4#5) ∧
      (ops64Allowed s.cp0.status = true → raises (.lwu rt offset base) .load 4#5) ∧
      ∀ i ∈ [Instr.sw rt offset base, .sc rt offset base], raises i .store 5#5) ∧
    (va.toNat % 8 ≠ 0 → ops64Allowed s.cp0.status = true →
      (∀ i ∈ [Instr.ld rt offset base, .lld rt offset base], raises i .load 4#5) ∧
      ∀ i ∈ [Instr.sd rt offset base, .scd rt offset base], raises i .store 5#5) ∧
    (∀ (pa : PAddr) (cached : Bool) (op : MemOp) (i : Instr),
      (op, i) ∈ [(MemOp.lb, Instr.lb rt offset base), (.lbu, .lbu rt offset base), (.sb, .sb rt offset base),
        (.lwl, .lwl rt offset base), (.lwr, .lwr rt offset base), (.ldl, .ldl rt offset base), (.ldr, .ldr rt offset base),
        (.swl, .swl rt offset base), (.swr, .swr rt offset base), (.sdl, .sdl rt offset base),
        (.sdr, .sdr rt offset base)] →
      (op.ops64 = true → ops64Allowed s.cp0.status = true) → Unhindered op va s pa cached → Completes i s (fun _ => True))

/-- R502, R640: an aligned access whose translation raises an exception takes it; then the byte order is checked (R140, R141);
a watched access raises WATCH before the bookkeeping and the bus (R660), the CP1 forms being watched by none; the bookkeeping
refuses what R232 and R626 name; a bus error raises DBE. The store-conditional forms reach the watch, the bookkeeping and the
bus only while LLbit is 1. A misaligned CP1 access raises Address Error as the integer forms do. CACHE raises what the
translation of its address as a load raises, and with the reference's quirk does nothing else (R572, R620). The model's own
choices in it: the byte-order refusal comes after the translation's exception (log entry 13); on a bus error the state is that
before the instruction, DDirty and DMaybe unchanged (log entry 14); the bus request of a partial-word access is for the bytes it
touches (log entry 5). -/
def Obligations.AccessExceptions : Prop :=
  ∀ (s : State) (rt : RegNo) (offset : BitVec 16) (base : RegNo) (op : MemOp) (i : Instr) (operation : BitVec 5),
    let va := s.readReg base + BitVec.ofInt 64 offset.toInt
    let be := s.cp0.config.getLsbD 15
    let re := userMode s.cp0.status && s.cp0.status.getLsbD 25
    let level := s.cp0.status.getLsbD 1 || s.cp0.status.getLsbD 2
    let orders := fun P : Prop =>
      (be = false → Refuses i s .littleEndian) ∧ (be = true → re = true → Refuses i s .reverseEndian) ∧
      (be = true → re = false → P)
    let goesOn := fun (pa : PAddr) (cached : Bool) =>
      (cached = true → va.getLsbD 12 ≠ pa.getLsbD 12 → Refuses i s .virtualAlias) ∧
      (cached = false → op.isStore = false → line16 pa ∈ s.dDirty → Refuses i s .uncachedReadOfDirty) ∧
      (cached = false → op.isStore = true → line16 pa ∈ s.dMaybe → Refuses i s .uncachedWriteToCached) ∧
      (Allowed s op.isStore cached va pa → Touches s op.reqType .error (op.firstByte pa).toNat (op.byteCount pa) →
        Takes i s .dataBusError)
    ((op, i) ∈ [(MemOp.lb, Instr.lb rt offset base), (.lbu, .lbu rt offset base), (.lh, .lh rt offset base),
        (.lhu, .lhu rt offset base), (.lw, .lw rt offset base), (.lwu, .lwu rt offset base), (.ld, .ld rt offset base),
        (.lwl, .lwl rt offset base), (.lwr, .lwr rt offset base), (.ldl, .ldl rt offset base), (.ldr, .ldr rt offset base),
        (.sb, .sb rt offset base), (.sh, .sh rt offset base), (.sw, .sw rt offset base), (.sd, .sd rt offset base),
        (.swl, .swl rt offset base), (.swr, .swr rt offset base), (.sdl, .sdl rt offset base), (.sdr, .sdr rt offset base),
        (.ll, .ll rt offset base), (.lld, .lld rt offset base), (.sc, .sc rt offset base), (.scd, .scd rt offset base)] →
      (op.ops64 = true → ops64Allowed s.cp0.status = true) → va.toNat % op.alignment = 0 →
      (∀ e, translate s.transCtx va op.kind = .raise e → Takes i s e) ∧
      (∀ seg pa cached, translate s.transCtx va op.kind = .ok seg pa cached → orders (
        (op.conditional = true → s.llbit = true) →
        (Watched s pa op.isStore →
          (level = false → Takes i s .watch) ∧ (level = true → Refuses i s .watchAtExceptionLevel)) ∧
        (¬ Watched s pa op.isStore → goesOn pa cached)))) ∧
    (s.cp0.status.getLsbD 29 = true → s.params.cp1Present = true →
      (va.toNat % 4 ≠ 0 → Takes (.lwc1 rt offset base) s (.addrError .load va) ∧
        Takes (.swc1 rt offset base) s (.addrError .store va)) ∧
      (va.toNat % 8 ≠ 0 → Takes (.ldc1 rt offset base) s (.addrError .load va) ∧
        Takes (.sdc1 rt offset base) s (.addrError .store va)) ∧
      ((op, i) ∈ [(MemOp.lwc1, Instr.lwc1 rt offset base), (.ldc1, .ldc1 rt offset base), (.swc1, .swc1 rt offset base),
          (.sdc1, .sdc1 rt offset base)] → va.toNat % op.alignment = 0 →
        (∀ e, translate s.transCtx va op.kind = .raise e → Takes i s e) ∧
        (∀ seg pa cached, translate s.transCtx va op.kind = .ok seg pa cached → orders (
          goesOn pa cached ∧
          (Allowed s op.isStore cached va pa → ¬ Touches s op.reqType .error (op.firstByte pa).toNat (op.byteCount pa) →
            Completes i s (fun _ => True)))))) ∧
    (cp0Usable s.cp0.status = true →
      (∀ e, translate s.transCtx va .load = .raise e → Takes (.cache operation offset base) s e) ∧
      (∀ seg pa cached, translate s.transCtx va .load = .ok seg pa cached → s.params.noopQuirks = true →
        Completes (.cache operation offset base) s (GprOnly s · 0#5 0#64)))

/-- R142: a read of any width sees, at every byte it shares with an earlier write of any width, the byte the write wrote,
and elsewhere what was there. R9, R241, R244: the bus answers memory's bytes, a device the data its first rule for the request
gives, else any value of the width; a ROM and a device leave memory as it is (log entry 5). -/
def Obligations.MixedWidths : Prop :=
  (∀ (m : List Host.Cell) (a n v b k : Nat), Memory.wf m = true →
    ∀ i, i < k →
      readBE (writeBE m a n v) b k / 256 ^ (k - 1 - i) % 256 =
        if a ≤ b + i ∧ b + i < a + n then v / 256 ^ (n - 1 - (b + i - a)) % 256 else (memRead m (b + i)).toNat) ∧
  (let m := writeBE [] 0x100 8 0x0011223344556677
   readBE m 0x100 1 = 0x00 ∧ readBE m 0x107 1 = 0x77 ∧ readBE m 0x102 2 = 0x2233 ∧ readBE m 0x104 4 = 0x44556677) ∧
  (∀ (s : State) (a n v : Nat),
    (¬ Touches s .read .device a n → s.busRead a n = readBE s.mem a n ∧
      ∀ j, j < n → answerByte s a n j = memRead s.mem (a + j)) ∧
    (∀ before r after x, s.inputs.busMap = before ++ r :: after →
      (∀ q ∈ before, q.kind = .device → ¬ q.Covers s.inputs.busTime .read a n) → r.kind = .device →
      r.Covers s.inputs.busTime .read a n → r.answer = some x → s.busRead a n = x % 256 ^ n) ∧
    (n ≤ 32 → s.busRead a n < 256 ^ n) ∧
    (¬ Touches s .write .rom a n → ¬ Touches s .write .device a n → s.busWrite a n v = writeBE s.mem a n v) ∧
    (Touches s .write .rom a n ∨ Touches s .write .device a n → s.busWrite a n v = s.mem))

/-- R542: LLbit is set by LL and LLD, cleared by ERET, and changed by no other instruction nor by an exception entry. -/
def Obligations.ReservationRule : Prop :=
  ∀ (i : Instr) (s t : State), exec i s = .next t →
    t.llbit = s.llbit ∨
    (t.llbit = true ∧ ∃ rt offset base, i = .ll rt offset base ∨ i = .lld rt offset base) ∨
    (t.llbit = false ∧ i = .eret)

/-! ## System instructions -/

/-- R55, R89, R575, R576: MFC0 gives the low word sign-extended, DMFC0 a 64-bit register whole; with the value each register
reads as. That DMFC0 of a reserved register gives the whole 64-bit free value is the model's choice (log entry 24), and that the
bits 29:26 of an EntryLo read as stored or as 0 all together is its reading of R64 (DEDUCED, log entry 7). -/
def Obligations.MoveFromCp0Results : Prop :=
  ∀ (s : State) (rt n : RegNo), cp0Usable s.cp0.status = true →
    let v := cp0Read n s
    Completes (.mfc0 rt n) s (GprOnly s · rt (BitVec.signExtend 64 (lo32 v))) ∧
    (ops64Allowed s.cp0.status = true → Completes (.dmfc0 rt n) s (GprOnly s · rt
      (if n ∈ [2#5, 3#5, 4#5, 8#5, 10#5, 14#5, 20#5, 30#5, 7#5, 21#5, 22#5, 23#5, 24#5, 25#5, 31#5] then v
        else BitVec.signExtend 64 (lo32 v)))) ∧
    (n ∈ [7#5, 21#5, 22#5, 23#5, 24#5, 25#5, 31#5] → v = Config.draw s.draws) ∧
    (n = 0#5 → lo32 v = s.cp0.index) ∧ (n = 4#5 → v = s.cp0.context) ∧ (n = 5#5 → lo32 v = s.cp0.pageMask) ∧
    (n = 6#5 → lo32 v = s.cp0.wired) ∧ (n = 8#5 → v = s.cp0.badVAddr) ∧ (n = 9#5 → lo32 v = s.cp0.count) ∧
    (n = 10#5 → v = s.cp0.entryHi) ∧ (n = 11#5 → lo32 v = s.cp0.compare) ∧ (n = 12#5 → lo32 v = s.cp0.status) ∧
    (n = 13#5 → lo32 v = s.cp0.cause) ∧ (n = 14#5 → v = s.cp0.epc) ∧ (n = 15#5 → lo32 v = s.params.prid) ∧
    (n = 16#5 → lo32 v = s.cp0.config) ∧ (n = 17#5 → lo32 v = s.cp0.llAddr) ∧ (n = 18#5 → lo32 v = s.cp0.watchLo) ∧
    (n = 19#5 → lo32 v = s.cp0.watchHi) ∧ (n = 20#5 → v = s.cp0.xcontext) ∧ (n = 26#5 → lo32 v = s.cp0.parityError) ∧
    (n = 27#5 → v = 0#64) ∧ (n = 28#5 → lo32 v = s.cp0.tagLo) ∧ (n = 29#5 → lo32 v = s.cp0.tagHi) ∧
    (n = 30#5 → v = s.cp0.errorEpc) ∧
    (n = 1#5 → s.params.randomPolicy ≠ .draw → lo32 v = s.cp0.random) ∧
    (n = 1#5 → s.params.randomPolicy = .draw → s.cp0.wired.toNat ≤ 31 →
      s.cp0.wired.toNat ≤ v.toNat ∧ v.toNat ≤ 31) ∧
    (n = 2#5 → v = s.cp0.entryLo0 ∨ v = s.cp0.entryLo0 &&& ~~~0x3C000000#64) ∧
    (n = 3#5 → v = s.cp0.entryLo1 ∨ v = s.cp0.entryLo1 &&& ~~~0x3C000000#64)

/-- R55, R577 to R579: the write masks of the CP0 registers and the side effects of writing Wired and Compare. A read-only
or reserved register keeps its value, and a write of Status or Config drops the cached segment (R800). -/
def Obligations.MoveToCp0Results : Prop :=
  ∀ (s : State) (rt n : RegNo), cp0Usable s.cp0.status = true →
    let s' : State := { s with activeSeg := if n = 12#5 ∨ n = 16#5 then Segment.sentinel else s.activeSeg }
    let bits32 := fun (mask old new : Word32) => (old &&& ~~~mask) ||| (new &&& mask)
    let bits64 := fun (mask old new : Word) => (old &&& ~~~mask) ||| (new &&& mask)
    let written := fun (w : Word) (c : Cp0) =>
      (n = 0#5 → c = { s.cp0 with index := bits32 0x3F#32 s.cp0.index (lo32 w) }) ∧
      (n = 2#5 → c = { s.cp0 with entryLo0 := bits64 0x3FFFFFFF#64 s.cp0.entryLo0 w }) ∧
      (n = 3#5 → c = { s.cp0 with entryLo1 := bits64 0x3FFFFFFF#64 s.cp0.entryLo1 w }) ∧
      (n = 4#5 → c = { s.cp0 with context := bits64 0xFFFFFFFFFF800000#64 s.cp0.context w }) ∧
      (n = 5#5 → c = { s.cp0 with pageMask := bits32 0x01FFE000#32 s.cp0.pageMask (lo32 w) }) ∧
      (n = 6#5 → c = { s.cp0 with wired := bits32 0x3F#32 s.cp0.wired (lo32 w), random := 31#32 }) ∧
      (n = 9#5 → c = { s.cp0 with count := lo32 w }) ∧
      (n = 10#5 → c = { s.cp0 with entryHi := bits64 0xC00000FFFFFFE0FF#64 s.cp0.entryHi w }) ∧
      (n = 11#5 → c = { s.cp0 with compare := lo32 w, cause := s.cp0.cause &&& ~~~0x00008000#32 }) ∧
      (n = 12#5 → c = { s.cp0 with status := bits32 0xFF57FFFF#32 s.cp0.status (lo32 w) }) ∧
      (n = 13#5 → c = { s.cp0 with cause := bits32 0x00000300#32 s.cp0.cause (lo32 w) }) ∧
      (n = 14#5 → c = { s.cp0 with epc := w }) ∧
      (n = 16#5 → c = { s.cp0 with config := bits32 0x0F00800F#32 s.cp0.config (lo32 w) }) ∧
      (n = 17#5 → c = { s.cp0 with llAddr := lo32 w }) ∧
      (n = 18#5 → c = { s.cp0 with watchLo := bits32 0xFFFFFFFB#32 s.cp0.watchLo (lo32 w) }) ∧
      (n = 19#5 → c = { s.cp0 with watchHi := bits32 0x0000000F#32 s.cp0.watchHi (lo32 w) }) ∧
      (n = 20#5 → c = { s.cp0 with xcontext := bits64 0xFFFFFFFE00000000#64 s.cp0.xcontext w }) ∧
      (n = 26#5 → c = { s.cp0 with parityError := bits32 0x000000FF#32 s.cp0.parityError (lo32 w) }) ∧
      (n = 28#5 → c = { s.cp0 with tagLo := bits32 0x0FFFFFC0#32 s.cp0.tagLo (lo32 w) }) ∧
      (n = 29#5 → c = { s.cp0 with tagHi := lo32 w }) ∧
      (n = 30#5 → c = { s.cp0 with errorEpc := w }) ∧
      (n ∈ [1#5, 7#5, 8#5, 15#5, 21#5, 22#5, 23#5, 24#5, 25#5, 27#5, 31#5] → c = s.cp0)
    (∃ c, written (BitVec.signExtend 64 (lo32 (s.readReg rt))) c ∧ Completes (.mtc0 rt n) s (Cp0Only s' · c)) ∧
    (ops64Allowed s.cp0.status = true →
      ∃ c, written (s.readReg rt) c ∧ Completes (.dmtc0 rt n) s (Cp0Only s' · c))

/-- R570: the CP0 instructions need CP0 usable; otherwise they raise CpU with CE = 0 and have no other effect, before every
other check; a reserved word of the COP0 group makes the same check first. -/
def Obligations.Cp0Unusable : Prop :=
  (∀ st : Word32, cp0Usable st = (kernelMode st || st.getLsbD 28)) ∧
  ∀ (s : State), cp0Usable s.cp0.status = false →
    (∀ (rt rd op : RegNo) (offset : BitVec 16) (base : RegNo),
      ∀ i ∈ [Instr.mfc0 rt rd, .dmfc0 rt rd, .mtc0 rt rd, .dmtc0 rt rd, .tlbr, .tlbwi, .tlbwr, .tlbp, .eret,
        .cache op offset base], Takes i s (.copUnusable 0#2)) ∧
    (takeException (.copUnusable 0#2) s).cp0.cause.extractLsb' 28 2 = 0#2 ∧
    (takeException (.copUnusable 0#2) s).cp0.cause.extractLsb' 2 5 = 11#5 ∧
    execDecoded (.reserved true) s = .next (takeException (.copUnusable 0#2) s) ∧
    decode 0x41000000#32 = .reserved true

/-- R600: ERET outside a delay slot returns to ErrorEPC clearing ERL, or to EPC clearing EXL, clears LLbit and makes the
active segment the sentinel. -/
def Obligations.EretResults : Prop :=
  ∀ s : State, cp0Usable s.cp0.status = true → s.delay = none →
    Completes .eret s (fun t =>
      (stERL s.cp0.status = true → t.pc = s.cp0.errorEpc ∧
        t.cp0 = { s.cp0 with status := s.cp0.status &&& ~~~4#32 }) ∧
      (stERL s.cp0.status = false → t.pc = s.cp0.epc ∧
        t.cp0 = { s.cp0 with status := s.cp0.status &&& ~~~2#32 }) ∧
      t.delay = none ∧ t.llbit = false ∧ t.activeSeg = Segment.sentinel ∧
      (∀ r, t.readReg r = s.readReg r) ∧ t.hi = s.hi ∧ t.lo = s.lo ∧ SameMemory s t ∧ t.tlb = s.tlb ∧
      t.icache = s.icache ∧ t.cp1 = s.cp1 ∧ t.pipe = s.pipe ∧ t.params = s.params ∧ t.inputs = s.inputs)

/-- R605, R606, R607: SYSCALL and BREAK raise their exception always; a trap instruction compares two 64-bit values in every
mode; it raises Trap with no other effect when the condition holds and has no effect when it does not. -/
def Obligations.SystemCallAndTrapResults : Prop :=
  ∀ (s : State) (rs rt : RegNo) (code : BitVec 10) (code20 : BitVec 20) (imm : BitVec 16),
    let a := (s.readReg rs).toInt
    let b := (s.readReg rt).toInt
    let ua := (s.readReg rs).toNat
    let ub := (s.readReg rt).toNat
    let ui := (BitVec.ofInt 64 imm.toInt).toNat
    let traps := fun (i : Instr) (c : Prop) =>
      (c → Takes i s .trap) ∧ (¬ c → Completes i s (GprOnly s · 0#5 0#64))
    traps (.tge rs rt code) (b ≤ a) ∧ traps (.tgeu rs rt code) (ub ≤ ua) ∧
    traps (.tlt rs rt code) (a < b) ∧ traps (.tltu rs rt code) (ua < ub) ∧
    traps (.teq rs rt code) (a = b) ∧ traps (.tne rs rt code) (a ≠ b) ∧
    traps (.tgei rs imm) (imm.toInt ≤ a) ∧ traps (.tgeiu rs imm) (ui ≤ ua) ∧
    traps (.tlti rs imm) (a < imm.toInt) ∧ traps (.tltiu rs imm) (ua < ui) ∧
    traps (.teqi rs imm) (a = imm.toInt) ∧ traps (.tnei rs imm) (a ≠ imm.toInt) ∧
    (takeException .trap s).cp0.cause.extractLsb' 2 5 = 13#5 ∧
    Takes (.syscall code20) s .syscall ∧ Takes (.break_ code20) s .breakpoint ∧
    (takeException .syscall s).cp0.cause.extractLsb' 2 5 = 8#5 ∧
    (takeException .breakpoint s).cp0.cause.extractLsb' 2 5 = 9#5

/-- R194, R204, R572, R594, R595: TLBWI installs the entry of the CP0 registers at Index, and nothing else; an index above 31
is refused, and with the reference's quirk it has no effect. TLBWR installs it at the policy's slot, which lies in Wired..31
where Random does or the policy draws it, and moves Random under on_tlbwr and draw; an illegal Wired is refused. Under per_cycle
it leaves Random: that the move R204 and R760 give with every retirement, TLBWR's too, is the free value of the next step's
begin, not TLBWR's effect, is the model's choice (R18, log entries 16 and 18). -/
def Obligations.TlbWriteResults : Prop :=
  ∀ s : State, cp0Usable s.cp0.status = true →
    let i := s.cp0.index.toNat % 64
    let c := s.cp0
    (s.params.noopQuirks = false → i < 32 → Completes .tlbwi s (fun t =>
      SystemFrame s t ∧ SameMemory s t ∧ t.cp0 = c ∧ t.icache = s.icache ∧
      t.activeSeg = s.activeSeg ∧ t.countPhase = s.countPhase ∧
      (∀ j : Fin 32, j.val ≠ i → t.tlb[j] = s.tlb[j]) ∧
      (∀ j : Fin 32, j.val = i →
        (t.tlb[j]).mask = c.pageMask.extractLsb' 13 12 ∧ (t.tlb[j]).vpn2 = c.entryHi.extractLsb' 13 27 ∧
        (t.tlb[j]).r = c.entryHi.extractLsb' 62 2 ∧ (t.tlb[j]).asid = c.entryHi.extractLsb' 0 8 ∧
        (t.tlb[j]).g = (c.entryLo0.getLsbD 0 && c.entryLo1.getLsbD 0) ∧
        (t.tlb[j]).even = TlbPage.mk (c.entryLo0.extractLsb' 6 24) (c.entryLo0.extractLsb' 3 3)
          (c.entryLo0.getLsbD 2) (c.entryLo0.getLsbD 1) ∧
        (t.tlb[j]).odd = TlbPage.mk (c.entryLo1.extractLsb' 6 24) (c.entryLo1.extractLsb' 3 3)
          (c.entryLo1.getLsbD 2) (c.entryLo1.getLsbD 1)))) ∧
    (s.params.noopQuirks = false → 32 ≤ i → Refuses .tlbwi s .tlbIndexOutOfRange) ∧
    (s.params.noopQuirks = true → Completes .tlbwi s (GprOnly s · 0#5 0#64)) ∧
    (31 < s.cp0.wired.toNat → Refuses .tlbwr s .illegalWired) ∧
    (s.cp0.wired.toNat ≤ 31 →
      (s.params.randomPolicy ≠ .draw → s.cp0.wired.toNat ≤ s.cp0.random.toNat ∧ s.cp0.random.toNat ≤ 31) →
      ∃ slot : Fin 32, s.cp0.wired.toNat ≤ slot.val ∧
        (s.params.randomPolicy ≠ .draw → slot.val = s.cp0.random.toNat) ∧
        Completes .tlbwr s (fun t =>
          SystemFrame s t ∧ SameMemory s t ∧ t.icache = s.icache ∧ t.activeSeg = s.activeSeg ∧
          t.countPhase = s.countPhase ∧ t.cp0 = { s.cp0 with random := t.cp0.random } ∧
          t.tlb[slot] = tlbEntryFromCp0 s.cp0 ∧ (∀ j : Fin 32, j ≠ slot → t.tlb[j] = s.tlb[j]) ∧
          (s.params.randomPolicy = .onTlbwr → t.cp0.random =
            if s.cp0.random = s.cp0.wired then 31#32 else s.cp0.random - 1#32) ∧
          (s.params.randomPolicy = .perCycle → t.cp0.random = s.cp0.random) ∧
          (s.cp0.wired.toNat ≤ t.cp0.random.toNat ∧ t.cp0.random.toNat ≤ 31)))

/-- R191: after TLBWI, translating a mapped address that only the written entry can match, under any later EntryHi, gives, with
a legal mask and a valid page of an existing frame, the frame's address with the address's own offset; an address outside the
mask's page pair, in another region, or under another ASID without the global bit, misses. Further, for every kind of access
(R170, R190, R192, R193): an invalid page raises TLB invalid, a store to a page with D = 0 Mod, a frame beyond the physical
space and an illegal mask are refused; and several matches are resolved by TLB_MULTIMATCH. That the page mask is checked first,
then V, then D, then the width of the frame is the model's reading of R170 and R192 (DEDUCED, log entry 13). -/
def Obligations.TlbRoundTrip : Prop :=
  ∀ (s t : State) (later va : Word) (kind : AccessKind) (m : SegMode) (seg : Segment), cp0Usable s.cp0.status = true →
    s.params.noopQuirks = false →
    let i := s.cp0.index.toNat % 64
    let e := tlbEntryFromCp0 s.cp0
    let k := pageBits e.mask
    let samePage := va.toNat / 2 ^ (k + 1) % 2 ^ (39 - k) = s.cp0.entryHi.toNat / 2 ^ (k + 1) % 2 ^ (39 - k) ∧
      va.extractLsb' 62 2 = s.cp0.entryHi.extractLsb' 62 2
    let sameSpace := (s.cp0.entryLo0.getLsbD 0 = true ∧ s.cp0.entryLo1.getLsbD 0 = true) ∨
      later.extractLsb' 0 8 = s.cp0.entryHi.extractLsb' 0 8
    let r := translate { t.transCtx with entryHi := later } va kind
    let hits := fun x : TlbEntry =>
      x.vpn2 &&& ~~~(x.mask.setWidth 27) = va.extractLsb' 13 27 &&& ~~~(x.mask.setWidth 27) ∧
      x.r = va.extractLsb' 62 2 ∧ (x.g = true ∨ x.asid = later.extractLsb' 0 8)
    let through := fun x : TlbEntry =>
      let k := pageBits x.mask
      let p := if va.getLsbD k then x.odd else x.even
      (legalMask x.mask = false → r = .stop .illegalPageMask) ∧
      (legalMask x.mask = true →
        (p.v = false → r = .raise (.tlbInvalid kind va)) ∧
        (p.v = true → kind = .store → p.d = false → r = .raise (.tlbModified va)) ∧
        (p.v = true → (kind = .store → p.d = true) →
          (2 ^ 20 ≤ p.pfn.toNat → r = .stop .pfnBeyondPhysical) ∧
          (p.pfn.toNat < 2 ^ 20 → ∃ pa cached, r = .ok seg pa cached ∧ pa.toNat % 2 ^ k = va.toNat % 2 ^ k ∧
            pa.toNat / 2 ^ k = p.pfn.toNat * 4096 / 2 ^ k ∧ cached = decide (p.c ≠ 2#3))))
    i < 32 → exec .tlbwi s = .next t →
    segMode t.cp0.status = some m → erlUpper m va = false → resolveIn m va = some seg → seg.mapped = true →
    (∀ j : Fin 32, j.val = i → t.tlb[j] = e ∧ (legalMask e.mask = true → (hits e ↔ samePage ∧ sameSpace))) ∧
    ((∀ j : Fin 32, j.val ≠ i → ¬ hits t.tlb[j]) →
      (hits e → through e) ∧ (¬ hits e → r = .raise (.tlbRefill kind va (mode64 t.cp0.status)))) ∧
    ((∃ j : Fin 32, j.val ≠ i ∧ hits t.tlb[j]) → hits e →
      (s.params.tlbMultimatch = .refuse → r = .stop .tlbMultipleMatch) ∧
      (s.params.tlbMultimatch = .mostRecent → through e) ∧
      (s.params.tlbMultimatch = .lowestIndex →
        ∃ j : Fin 32, hits t.tlb[j] ∧ (∀ l : Fin 32, l < j → ¬ hits t.tlb[l]) ∧ through t.tlb[j]))

/-- R198, R593: TLBR reads the indexed entry into PageMask, EntryHi and the EntryLo pair, the VPN2 bits under the mask as
stored or 0; an index above 31 is refused. That those bits read as stored or as 0 all together is the model's reading of R198
(DEDUCED, log entry 7).
R197, R596: TLBP puts the matching index in Index with P = 0, or sets P with a free index on a miss. R193: when several entries
match, TLB_MULTIMATCH decides: a refusal, the lowest index, or the entry most recently written, which is the first match in the
write order of State; the model keeps that order and takes entries never written for the oldest, the lowest index first (log
entry 6). TLBWI puts its entry first in it. -/
def Obligations.TlbReadAndProbeResults : Prop :=
  ∀ s : State, cp0Usable s.cp0.status = true →
    let hits := fun j : Fin 32 => (s.tlb[j]).matchesPage (s.cp0.entryHi.extractLsb' 13 27)
      (s.cp0.entryHi.extractLsb' 62 2) (s.cp0.entryHi.extractLsb' 0 8)
    let i := s.cp0.index.toNat % 64
    (32 ≤ i → Refuses .tlbr s .tlbIndexOutOfRange) ∧
    (∀ j : Fin 32, j.val = i →
      let e := s.tlb[j]
      let lo := fun (p : TlbPage) =>
        BitVec.ofNat 64 (p.pfn.toNat * 64 + p.c.toNat * 8 + p.d.toNat * 4 + p.v.toNat * 2 + e.g.toNat)
      let hi := fun (vpn2 : BitVec 27) =>
        BitVec.ofNat 64 (e.r.toNat * 2 ^ 62 + vpn2.toNat * 2 ^ 13 + e.asid.toNat)
      ∃ vpn2 : BitVec 27, (vpn2 = e.vpn2 ∨ vpn2 = e.vpn2 &&& ~~~(e.mask.setWidth 27)) ∧
        Completes .tlbr s (Cp0Only s · { s.cp0 with
          pageMask := BitVec.ofNat 32 (e.mask.toNat * 2 ^ 13), entryHi := hi vpn2,
          entryLo0 := lo e.even, entryLo1 := lo e.odd })) ∧
    (∀ i : Fin 32, hits i = true → (∀ j : Fin 32, j ≠ i → hits j = false) →
      Completes .tlbp s (Cp0Only s · { s.cp0 with index := BitVec.ofNat 32 i.val })) ∧
    ((∀ j : Fin 32, hits j = false) → ∃ free : BitVec 6,
      Completes .tlbp s (Cp0Only s · { s.cp0 with index := 0x80000000#32 ||| free.setWidth 32 })) ∧
    (∀ a b : Fin 32, a ≠ b → hits a = true → hits b = true →
      let found := fun i : Fin 32 => Completes .tlbp s (Cp0Only s · { s.cp0 with index := BitVec.ofNat 32 i.val })
      let lowest := fun i : Fin 32 => hits i = true ∧ ∀ j : Fin 32, j < i → hits j = false
      (s.params.tlbMultimatch = .refuse → Refuses .tlbp s .tlbMultipleMatch) ∧
      (s.params.tlbMultimatch = .lowestIndex → ∀ i, lowest i → found i) ∧
      (s.params.tlbMultimatch = .mostRecent →
        (∀ (i : Fin 32) (later earlier : List Nat), hits i = true → s.recency = later ++ i.val :: earlier →
          (∀ j : Fin 32, j.val ∈ later → hits j = false) → found i) ∧
        ((∀ j : Fin 32, hits j = true → j.val ∉ s.recency) → ∀ i, lowest i → found i))) ∧
    (s.params.noopQuirks = false → i < 32 → ∃ t, exec .tlbwi s = .next t ∧
      t.recency = i :: s.recency.filter (fun j => j != i))

/-- R226: a filled line is found under its own tag and under no other, and not after an invalidation. -/
def Obligations.InstructionCacheDiscipline : Prop :=
  ∀ (s : State) (va : Word) (pa other : PAddr) (data : BitVec 256),
    (s.icFillWith va pa data).icProbe va pa = some { data := data, ptag := pa.extractLsb' 12 20, valid := true } ∧
    (pa.extractLsb' 12 20 ≠ other.extractLsb' 12 20 → (s.icFillWith va pa data).icProbe va other = none) ∧
    (s.icInvalidate va).icProbe va pa = none ∧
    (∀ va' : Word, va'.extractLsb' 5 9 ≠ va.extractLsb' 5 9 →
      (s.icFillWith va pa data).icProbe va' other = s.icProbe va' other ∧
      (s.icInvalidate va).icProbe va' other = s.icProbe va' other)

/-- R620, R621, R627: the instruction-cache operations of CACHE; the very next fetch looks up a line they change as it was. What
a bus error leaves (any data in a filled line, memory unchanged by a write-back) is the model's choice (log entry 12), as is
which fetch is the one already made (log entry 27), and that a ROM or a device takes a write-back without a change of memory (log
entry 5). -/
def Obligations.InstructionCacheOperations : Prop :=
  ∀ (s : State) (offset : BitVec 16) (base : RegNo) (seg : Segment) (pa : PAddr) (cached : Bool),
    cp0Usable s.cp0.status = true → s.params.noopQuirks = false →
    let va := s.readReg base + BitVec.ofInt 64 offset.toInt
    let line := s.icLine va
    let on := fun (op : BitVec 5) (f : State → Prop) => Completes (.cache op offset base) s
      (fun t => SystemFrame s t ∧ t.tlb = s.tlb ∧ t.dDirty = s.dDirty ∧ t.dMaybe = s.dMaybe ∧ f t)
    let keeps := fun t : State => t.cp0 = s.cp0
    let others := fun t : State => ∀ va' : Word, va'.extractLsb' 5 9 ≠ va.extractLsb' 5 9 → t.icLine va' = s.icLine va'
    let unseen := fun t : State => t.fetchLine va = line ∧ t.age.fetchLine va = t.icLine va
    translate s.transCtx va .load = .ok seg pa cached →
    on 0x00#5 (fun t => keeps t ∧ SameBytes s t ∧ others t ∧ unseen t ∧ t.icLine va = { line with valid := false }) ∧
    on 0x04#5 (fun t => SameBytes s t ∧ t.icache = s.icache ∧ t.cp0 = { s.cp0 with
      tagLo := BitVec.ofNat 32 (line.ptag.toNat * 256 + line.valid.toNat * 128) }) ∧
    on 0x08#5 (fun t => keeps t ∧ SameBytes s t ∧ others t ∧ unseen t ∧ t.icLine va = { line with
      ptag := s.cp0.tagLo.extractLsb' 8 20, valid := s.cp0.tagLo.getLsbD 7 }) ∧
    on 0x10#5 (fun t => keeps t ∧ SameBytes s t ∧ others t ∧ unseen t ∧ t.icLine va =
      if line.ptag = pa.extractLsb' 12 20 then { line with valid := false } else line) ∧
    (anyLine s.dDirty (lineBase pa) 32 = true → Refuses (.cache 0x14#5 offset base) s .fetchOfDirtyLine) ∧
    (anyLine s.dDirty (lineBase pa) 32 = false → ∃ data : BitVec 256,
      (¬ Touches s .read .error (lineBase pa) 32 → data = BitVec.ofNat 256 (s.busRead (lineBase pa) 32)) ∧
      on 0x14#5 (fun t => keeps t ∧ SameBytes s t ∧ others t ∧ unseen t ∧ t.icLine va =
        { data := data, ptag := pa.extractLsb' 12 20, valid := true })) ∧
    (s.icProbe va pa = none → on 0x18#5 (fun t => keeps t ∧ SameBytes s t ∧ t.icache = s.icache)) ∧
    (∀ l, s.icProbe va pa = some l →
      (anyLine s.dMaybe (lineBase pa) 32 = true → Refuses (.cache 0x18#5 offset base) s .icacheWriteBackOverData) ∧
      (anyLine s.dMaybe (lineBase pa) 32 = false →
        (¬ Touches s .write .error (lineBase pa) 32 → Memory.wf s.mem = true →
          on 0x18#5 (fun t => keeps t ∧ t.icache = s.icache ∧ BusStored s t (lineBase pa) 32 l.data.toNat)) ∧
        (Touches s .write .error (lineBase pa) 32 →
          on 0x18#5 (fun t => keeps t ∧ t.icache = s.icache ∧ SameBytes s t)))) ∧
    (∀ op ∈ [0x0C#5, 0x1C#5], Refuses (.cache op offset base) s .undefinedCacheOp)

/-- R620, R622, R623: the data-cache operations of CACHE on the bookkeeping sets, and the refused codes. -/
def Obligations.DataCacheOperations : Prop :=
  ∀ (s : State) (offset : BitVec 16) (base : RegNo) (seg : Segment) (pa : PAddr) (cached : Bool),
    cp0Usable s.cp0.status = true → s.params.noopQuirks = false →
    let va := s.readReg base + BitVec.ofInt 64 offset.toInt
    let line := pa.toNat - pa.toNat % 16
    let same := fun l : Nat => l / 16 % 512 = va.toNat / 16 % 512
    let on := fun (op : BitVec 5) (c : Cp0) (dirty may : Nat → Prop) => Completes (.cache op offset base) s
      (fun t => SystemFrame s t ∧ SameBytes s t ∧ t.tlb = s.tlb ∧ t.icache = s.icache ∧
        t.cp0 = c ∧ ∀ l, (l ∈ t.dDirty ↔ dirty l) ∧ (l ∈ t.dMaybe ↔ may l))
    let refuses := fun (op : BitVec 5) (r : Refusal) => Refuses (.cache op offset base) s r
    translate s.transCtx va .load = .ok seg pa cached →
    on 0x01#5 s.cp0 (fun l => l ∈ s.dDirty ∧ ¬ same l) (fun l => l ∈ s.dMaybe ∧ ¬ same l) ∧
    (∃ free : Word32, free &&& 0xF000003F#32 = 0#32 ∧
      on 0x05#5 { s.cp0 with tagLo := free } (· ∈ s.dDirty) (· ∈ s.dMaybe)) ∧
    (s.cp0.tagLo.extractLsb' 6 2 ≠ 0#2 → refuses 0x09#5 .tagStoreCreatesLine) ∧
    (s.cp0.tagLo.extractLsb' 6 2 = 0#2 →
      ((∃ l ∈ s.dDirty, same l) → refuses 0x09#5 .discardOfDirtyLine) ∧
      ((∀ l ∈ s.dDirty, ¬ same l) → on 0x09#5 s.cp0 (· ∈ s.dDirty) (fun l => l ∈ s.dMaybe ∧ ¬ same l))) ∧
    refuses 0x0D#5 .createDirtyExclusive ∧
    (line ∈ s.dDirty → refuses 0x11#5 .discardOfDirtyLine) ∧
    (line ∉ s.dDirty → on 0x11#5 s.cp0 (· ∈ s.dDirty) (fun l => l ∈ s.dMaybe ∧ l ≠ line)) ∧
    on 0x15#5 s.cp0 (fun l => l ∈ s.dDirty ∧ l ≠ line) (fun l => l ∈ s.dMaybe ∧ l ≠ line) ∧
    on 0x19#5 s.cp0 (fun l => l ∈ s.dDirty ∧ l ≠ line) (· ∈ s.dMaybe) ∧
    refuses 0x1D#5 .undefinedCacheOp ∧
    (∀ op : BitVec 5, op.extractLsb' 1 1 = 1#1 → refuses op .secondaryCacheOp)

/-- R640, R641: a CP1 instruction raises CpU with CE = 1 while CU1 = 0, in every mode, and is refused when no unit is attached;
there is no coprocessor 2, so its instructions raise CpU with CE = 2, or RI once CU2 is set. -/
def Obligations.CoprocessorUnusable : Prop :=
  ∀ (s : State) (payload : BitVec 26) (ft : RegNo) (offset : BitVec 16) (base : RegNo),
    (∀ i ∈ [Instr.cop1 payload, .lwc1 ft offset base, .ldc1 ft offset base, .swc1 ft offset base, .sdc1 ft offset base],
      (s.cp0.status.getLsbD 29 = false → Takes i s (.copUnusable 1#2) ∧
        (takeException (.copUnusable 1#2) s).cp0.cause.extractLsb' 28 2 = 1#2) ∧
      (s.cp0.status.getLsbD 29 = true → s.params.cp1Present = false → Refuses i s .cp1NotModelled)) ∧
    ∀ i ∈ [Instr.cop2 payload, .lwc2 ft offset base, .ldc2 ft offset base, .swc2 ft offset base, .sdc2 ft offset base],
      (s.cp0.status.getLsbD 30 = false → Takes i s (.copUnusable 2#2) ∧
        (takeException (.copUnusable 2#2) s).cp0.cause.extractLsb' 28 2 = 2#2) ∧
      (s.cp0.status.getLsbD 30 = true → Takes i s .reserved)

/-- R640: with a unit attached, the CP1 loads and stores move their bytes between memory and the unit's register. The bits
of the register above a word loaded are the model's free value (log entry 9). That no byte changes where a ROM or a device takes
the write is the model's choice (DESIGN CHOICE, log entry 5). -/
def Obligations.Cp1LoadsAndStores : Prop :=
  ∀ (s : State) (ft : RegNo) (offset : BitVec 16) (base : RegNo) (pa : PAddr) (cached : Bool),
    s.cp0.status.getLsbD 29 = true → s.params.cp1Present = true →
    let va := s.readReg base + BitVec.ofInt 64 offset.toInt
    let loads := fun (n : Nat) (t : State) =>
      (fprRead t ft).toNat % 256 ^ n = s.busRead pa.toNat n ∧
      (∀ r, r ≠ ft → fprRead t r = fprRead s r) ∧ t.cp1.fcr = s.cp1.fcr ∧ t.cp1.cond = s.cp1.cond ∧
      Results s t 0#5 0#64 s.hi s.lo s.llbit s.cp0 ∧ SameBytes s t ∧ Booked s t false cached pa ∧ Sequential s t ∧
      t.tlb = s.tlb ∧ t.icache = s.icache ∧ t.activeSeg = s.activeSeg ∧ t.params = s.params
    (Accessible .lwc1 va s pa cached → Completes (.lwc1 ft offset base) s (loads 4)) ∧
    (Accessible .ldc1 va s pa cached → Completes (.ldc1 ft offset base) s (loads 8)) ∧
    (Memory.wf s.mem = true →
      (Accessible .swc1 va s pa cached → Completes (.swc1 ft offset base) s (fun t =>
        Stores .swc1 s t 0#5 pa cached (fprRead s ft) 0#64 ∧ BusStored s t pa.toNat 4 (fprRead s ft).toNat)) ∧
      (Accessible .sdc1 va s pa cached → Completes (.sdc1 ft offset base) s (fun t =>
        Stores .sdc1 s t 0#5 pa cached (fprRead s ft) 0#64 ∧ BusStored s t pa.toNat 8 (fprRead s ft).toNat)))

/-- R640: with a unit attached, the moves and branches of the CP1 interface and the words the unit executes. The
sub-opcodes are the model's (PRESUMED, log entry 9). -/
def Obligations.Cp1MovesAndBranches : Prop :=
  ∀ (s : State) (rt fs : RegNo) (imm : BitVec 16), s.cp0.status.getLsbD 29 = true → s.params.cp1Present = true →
    let move := fun sub : BitVec 5 => sub ++ rt ++ fs ++ 0#11
    let writes := fun (t : State) =>
      Results s t 0#5 0#64 s.hi s.lo s.llbit s.cp0 ∧ SameMemory s t ∧ Sequential s t ∧ t.tlb = s.tlb ∧
      t.icache = s.icache ∧ t.activeSeg = s.activeSeg ∧ t.params = s.params
    let target := BitVec.ofInt 64 (s.pc.toInt + 4 + 4 * imm.toInt)
    let branch := fun (nd tf likely : Bool) =>
      Completes (.cop1 (0x08#5 ++ (0#3 ++ BitVec.ofBool nd ++ BitVec.ofBool tf) ++ imm)) s
        (BranchOnly s · 0#5 (s.cp1.cond == tf) likely target)
    Completes (.cop1 (move 0#5)) s (GprOnly s · rt (BitVec.signExtend 64 (lo32 (fprRead s fs)))) ∧
    Completes (.cop1 (move 1#5)) s (GprOnly s · rt (fprRead s fs)) ∧
    Completes (.cop1 (move 2#5)) s (fun t => ∃ v : Word32, s.cp1.fcr[fs.toNat]? = some v ∧
      GprOnly s t rt (BitVec.signExtend 64 v)) ∧
    Completes (.cop1 (move 4#5)) s (fun t => writes t ∧ lo32 (fprRead t fs) = lo32 (s.readReg rt) ∧
      (∀ r, r ≠ fs → fprRead t r = fprRead s r) ∧ t.cp1.fcr = s.cp1.fcr ∧ t.cp1.cond = s.cp1.cond) ∧
    Completes (.cop1 (move 5#5)) s (fun t => writes t ∧ fprRead t fs = s.readReg rt ∧
      (∀ r, r ≠ fs → fprRead t r = fprRead s r) ∧ t.cp1.fcr = s.cp1.fcr ∧ t.cp1.cond = s.cp1.cond) ∧
    Completes (.cop1 (move 6#5)) s (fun t => writes t ∧ t.cp1.fcr[fs.toNat]? = some (lo32 (s.readReg rt)) ∧
      t.cp1.fpr = s.cp1.fpr ∧ t.cp1.cond = s.cp1.cond) ∧
    (s.delay = none → branch false false false ∧ branch false true false ∧ branch true false true ∧
      branch true true true) ∧
    (∀ payload : BitVec 26,
      let sub := payload.extractLsb' 21 5
      sub ∉ [0#5, 1#5, 2#5, 4#5, 5#5, 6#5] → (sub = 8#5 → 4 ≤ (payload.extractLsb' 16 5).toNat) →
      let r := Config.cp1Exec payload (stFR s.cp0.status) s.cp1
      (r.2 = false → Completes (.cop1 payload) s (fun t => writes t ∧ t.cp1 = r.1)) ∧
      (r.2 = true → exec (.cop1 payload) s = .next (takeException .floatingPoint { s with cp1 := r.1 })))

/-! ## Exceptions, interrupts and the timer -/

/-- R650, R670, R671: exception entry writes EPC and BD only from EXL = 0, ExcCode by the table, CE for CpU, EXL, the pc and the
active segment, and leaves the registers, HI, LO, LLbit, memory, KSU, IE and ERL alone. That a killed delay slot too has BD = 1
and EPC = the branch, against R671's "(and it was not killed)", is the model's reading of vectors VE22 and VI17 (DEDUCED, log
entry 10). -/
def Obligations.ExceptionEntry : Prop :=
  ∀ (s : State) (e : Exc),
    let t := takeException e s
    let code : BitVec 5 := match e with
      | .int => 0#5
      | .tlbModified _ => 1#5
      | .tlbRefill .fetch _ _ | .tlbRefill .load _ _ | .tlbInvalid .fetch _ | .tlbInvalid .load _ => 2#5
      | .tlbRefill .store _ _ | .tlbInvalid .store _ => 3#5
      | .addrError .fetch _ | .addrError .load _ => 4#5
      | .addrError .store _ => 5#5
      | .fetchBusError => 6#5
      | .dataBusError => 7#5
      | .syscall => 8#5
      | .breakpoint => 9#5
      | .reserved => 10#5
      | .copUnusable _ => 11#5
      | .overflow => 12#5
      | .trap => 13#5
      | .floatingPoint => 15#5
      | .watch => 23#5
    (stEXL s.cp0.status = true → t.cp0.epc = s.cp0.epc ∧ t.cp0.cause.getLsbD 31 = s.cp0.cause.getLsbD 31) ∧
    (stEXL s.cp0.status = false → s.delay = none → t.cp0.epc = s.pc ∧ t.cp0.cause.getLsbD 31 = false) ∧
    (∀ d, stEXL s.cp0.status = false → s.delay = some d →
      t.cp0.epc = s.pc - 4#64 ∧ t.cp0.cause.getLsbD 31 = true) ∧
    t.cp0.cause.extractLsb' 2 5 = code ∧
    (∀ n, e = .copUnusable n → t.cp0.cause.extractLsb' 28 2 = n) ∧
    t.cp0.cause.extractLsb' 8 8 = s.cp0.cause.extractLsb' 8 8 ∧
    t.cp0.status = s.cp0.status ||| 2#32 ∧ t.activeSeg = Segment.sentinel ∧ t.delay = none ∧
    t.pc = (if s.cp0.status.getLsbD 22 then 0xFFFFFFFFBFC00200#64 else 0xFFFFFFFF80000000#64) +
      (if stEXL s.cp0.status then 0x180#64 else e.offset) ∧
    t.gpr = s.gpr ∧ t.hi = s.hi ∧ t.lo = s.lo ∧ t.llbit = s.llbit ∧ t.mem = s.mem ∧ t.tlb = s.tlb ∧
    t.icache = s.icache ∧ t.dDirty = s.dDirty ∧ t.dMaybe = s.dMaybe ∧ t.cp1 = s.cp1 ∧ t.pipe = s.pipe ∧
    t.countPhase = s.countPhase ∧ t.params = s.params ∧ t.inputs = s.inputs ∧
    t.cp0 = { s.cp0 with
      epc := t.cp0.epc, cause := t.cp0.cause, status := t.cp0.status, badVAddr := t.cp0.badVAddr,
      context := t.cp0.context, xcontext := t.cp0.xcontext, entryHi := t.cp0.entryHi }

/-- R672: the vectors. A TLB refill with EXL = 0 goes to offset 0, or 0x080 while the mode's 64-bit flag is set; every other
exception, and every exception with EXL = 1, to 0x180; the base is chosen by BEV. -/
def Obligations.ExceptionVectors : Prop :=
  ∀ (s : State) (e : Exc),
    let base := if s.cp0.status.getLsbD 22 then 0xFFFFFFFFBFC00200#64 else 0xFFFFFFFF80000000#64
    (stEXL s.cp0.status = true → (takeException e s).pc = base + 0x180#64) ∧
    (stEXL s.cp0.status = false →
      (∀ k va, e = .tlbRefill k va false → (takeException e s).pc = base) ∧
      (∀ k va, e = .tlbRefill k va true → (takeException e s).pc = base + 0x080#64) ∧
      ((∀ k va m, e ≠ .tlbRefill k va m) → (takeException e s).pc = base + 0x180#64)) ∧
    (∀ va k m, translate s.transCtx va k = .raise (.tlbRefill k va m) → m = mode64 s.cp0.status)

/-- R677: what each exception records. PTEBase and the ASID are never written. -/
def Obligations.RecordedValues : Prop :=
  ∀ (s : State) (e : Exc),
    let c := s.cp0
    let t := (takeException e s).cp0
    t.context.extractLsb' 23 41 = c.context.extractLsb' 23 41 ∧ t.xcontext.extractLsb' 33 31 = c.xcontext.extractLsb' 33 31 ∧
    t.entryHi.extractLsb' 0 8 = c.entryHi.extractLsb' 0 8 ∧
    (∀ va, (e = .tlbModified va ∨ (∃ k m, e = .tlbRefill k va m) ∨ ∃ k, e = .tlbInvalid k va) →
      t.badVAddr = va ∧ t.context.extractLsb' 4 19 = va.extractLsb' 13 19 ∧
      t.xcontext.extractLsb' 31 2 = va.extractLsb' 62 2 ∧ t.xcontext.extractLsb' 4 27 = va.extractLsb' 13 27 ∧
      t.entryHi.extractLsb' 62 2 = va.extractLsb' 62 2 ∧ t.entryHi.extractLsb' 13 27 = va.extractLsb' 13 27) ∧
    (∀ va k, e = .addrError k va → t.badVAddr = va) ∧
    ((∀ va, e ≠ .tlbModified va ∧ (∀ k m, e ≠ .tlbRefill k va m) ∧ (∀ k, e ≠ .tlbInvalid k va) ∧
        ∀ k, e ≠ .addrError k va) →
      t.badVAddr = c.badVAddr ∧ t.context = c.context ∧ t.xcontext = c.xcontext ∧ t.entryHi = c.entryHi)

/-- R666, R690, R691: an interrupt is taken before the fetched instruction when one is pending under the mask with IE = 1 and
EXL = ERL = 0, after the exceptions of the fetch; otherwise it is not. -/
def Obligations.InterruptTaken : Prop :=
  ∀ s : State, s.coldReset = false →
    let b := beginStep s
    let enabled := b.cp0.status.getLsbD 0 = true ∧ b.cp0.status.getLsbD 1 = false ∧ b.cp0.status.getLsbD 2 = false ∧
      ∃ n : Fin 8, b.cp0.cause.getLsbD (8 + n.val) = true ∧ b.cp0.status.getLsbD (8 + n.val) = true
    (∀ e, fetch b = .raise e → step s = .next (takeException e b)) ∧
    (∀ w f, fetch b = .word w f → enabled → step s = .next (takeException .int f) ∧
      f.pc = b.pc ∧ f.delay = b.delay ∧ f.cp0 = b.cp0 ∧ f.gpr = s.gpr) ∧
    (∀ w f, fetch b = .word w f → ¬ enabled → step s = execDecoded (decode (f.maskWord w)) f.age)

/-- R18, R204, R690, R700, R701: between two instructions Count advances by a free amount and IP7 is set exactly when it passes
through Compare, otherwise kept; IP6..IP2 follow the given line levels; Random is a free slot of Wired..31 under `per_cycle`;
nothing else of CP0 moves. The model's choices: the levels are a list with one entry for each step, whose head is used up (log
entry 16); under `per_cycle` the moves of the retirements are one free value (log entries 16 and 18); and under `draw` the stored
Random stays, R204's draw "at other times" being made where Random is read or a TLBWR uses it (log entries 7, 16 and 18). -/
def Obligations.TimerAndLines : Prop :=
  ∀ s : State,
    let n := (Config.draw s.draws).toNat
    let t := s.tick
    t.cp0.count = s.cp0.count + BitVec.ofNat 32 n ∧
    (t.cp0.cause.getLsbD 15 = true ↔ s.cp0.cause.getLsbD 15 = true ∨
      ∃ j, 0 < j ∧ j ≤ n ∧ s.cp0.count + BitVec.ofNat 32 j = s.cp0.compare) ∧
    (∀ l rest, s.inputs.extInt = l :: rest → t.cp0.cause.extractLsb' 10 5 = l ∧ t.inputs.extInt = rest) ∧
    t.cp0.cause &&& ~~~0x0000FC00#32 = s.cp0.cause &&& ~~~0x0000FC00#32 ∧
    (s.params.randomPolicy ≠ .perCycle → t.cp0.random = s.cp0.random) ∧
    (s.params.randomPolicy = .perCycle → s.cp0.wired.toNat ≤ 31 →
      s.cp0.wired.toNat ≤ t.cp0.random.toNat ∧ t.cp0.random.toNat ≤ 31) ∧
    t.cp0 = { s.cp0 with count := t.cp0.count, cause := t.cp0.cause, random := t.cp0.random }

/-! ## Segments and privilege -/

/-- R156: for every address and mode at most one segment of the mode's table contains it, and `resolve` returns that one,
or none when there is none. -/
def Obligations.SegmentTotality : Prop :=
  ∀ (m : SegMode) (va : Word),
    (segments.filter (fun g => g.modes.contains m && g.contains va)).length ≤ 1 ∧
    ∀ g, resolveIn m va = some g ↔ g ∈ segments ∧ g.modes.contains m = true ∧ g.contains va = true

/-- R154: the physical address of an unmapped segment; `va[28:0]` for kseg0 and kseg1, `va[31:0]` in an xkphys window; the
boot vector reaches 0x1FC00000, uncached. -/
def Obligations.UnmappedAddresses : Prop :=
  (∀ (c : TransCtx) (va : Word) (k : AccessKind) (m : SegMode) (g : Segment), segMode c.status = some m →
    erlUpper m va = false → resolveIn m va = some g → g.mapped = false →
    ∃ cached, translate c va k = .ok g (lo32 (va - g.offset)) cached ∧
      (0xFFFFFFFF80000000 ≤ va.toNat → (lo32 (va - g.offset)).toNat = va.toNat % 2 ^ 29) ∧
      (va.extractLsb' 62 2 = 2#2 → lo32 (va - g.offset) = va.extractLsb' 0 32)) ∧
  (∀ c : TransCtx, (segMode c.status = some .k32 ∨ segMode c.status = some .k64 ∨ segMode c.status = some .k32Erl ∨
    segMode c.status = some .k64Erl) →
    ∃ g, translate c 0xFFFFFFFFBFC00000#64 .fetch = .ok g 0x1FC00000#32 false)

/-- R153, R157: in 32-bit user mode every address from 0x80000000 up, sign extended or not, is an address error, so no
kernel segment can be reached; in supervisor mode the kernel's own segments cannot. -/
def Obligations.UserCannotReachKernel : Prop :=
  ∀ (c : TransCtx) (va : Word) (k : AccessKind),
    (userMode c.status = true → stUX c.status = false → 2 ^ 31 ≤ va.toNat → translate c va k = .raise (.addrError k va)) ∧
    (userMode c.status = true → 2 ^ 40 ≤ va.toNat → translate c va k = .raise (.addrError k va)) ∧
    (supervisorMode c.status = true → 2 ^ 63 ≤ va.toNat →
      ¬ (0xFFFFFFFFC0000000 ≤ va.toNat ∧ va.toNat < 0xFFFFFFFFE0000000) →
      translate c va k = .raise (.addrError k va))

/-- R570, R16: a step taken where CP0 is not usable (no kernel mode, CU0 = 0) changes no TLB entry, no page, wired, watch,
compare, configuration, tag or error register, no instruction-cache line but by the external invalidates before it and the
fetch's refill, and of Status at most EXL, which only an exception entry sets. -/
def Obligations.UnprivilegedStepKeepsSystemState : Prop :=
  ∀ s t : State, s.coldReset = false → cp0Usable s.cp0.status = false → step s = .next t →
    t.tlb = s.tlb ∧ t.recency = s.recency ∧ t.params = s.params ∧
    t.cp0.index = s.cp0.index ∧ t.cp0.entryLo0 = s.cp0.entryLo0 ∧ t.cp0.entryLo1 = s.cp0.entryLo1 ∧
    t.cp0.pageMask = s.cp0.pageMask ∧ t.cp0.wired = s.cp0.wired ∧ t.cp0.compare = s.cp0.compare ∧
    t.cp0.config = s.cp0.config ∧ t.cp0.watchLo = s.cp0.watchLo ∧ t.cp0.watchHi = s.cp0.watchHi ∧
    t.cp0.parityError = s.cp0.parityError ∧ t.cp0.tagLo = s.cp0.tagLo ∧ t.cp0.tagHi = s.cp0.tagHi ∧
    t.cp0.errorEpc = s.cp0.errorEpc ∧
    (let b := beginStep s
     t.icache = b.icache ∨ ∃ pa data, t.icache = (b.icFillWith s.pc pa data).icache) ∧
    (t.cp0.status = s.cp0.status ∨
      (t.cp0.status = s.cp0.status ||| 2#32 ∧ kernelMode t.cp0.status = true ∧
        ∃ e, t.pc = exceptionVector s.cp0.status e))

/-! ## The cycle machine -/

/-- R773: in a stall cycle only the free-running inputs move: the Count phase, Count and Cause.IP7..IP2. R224, R810: the
external invalidate-hits asked for before the cycle, and no later ones, are performed, and then only a matching line's valid bit
changes. That Count advances on the phase bit as the cycle finds it is the model's choice (log entry 28). -/
def Obligations.StallCycle : Prop :=
  ∀ s : State, s.coldReset = false → 0 < s.pipe.cyclesToStall →
    ∃ t, cycle s = .next t ∧
      t.pipe = { s.pipe with cyclesToStall := s.pipe.cyclesToStall - 1 } ∧ t.countPhase = !s.countPhase ∧
      t.cp0 = { s.cp0 with count := t.cp0.count, cause := t.cp0.cause } ∧
      t.cp0.cause &&& ~~~0x0000FC00#32 = s.cp0.cause &&& ~~~0x0000FC00#32 ∧
      t.cp0.count = s.cp0.count + (if s.countPhase then 1#32 else 0#32) ∧
      t.gpr = s.gpr ∧ t.hi = s.hi ∧ t.lo = s.lo ∧ t.llbit = s.llbit ∧ t.pc = s.pc ∧ t.delay = s.delay ∧ t.tlb = s.tlb ∧
      t.activeSeg = s.activeSeg ∧ t.dDirty = s.dDirty ∧ t.dMaybe = s.dMaybe ∧ t.mem = s.mem ∧
      t.cp1 = s.cp1 ∧ t.coldReset = false ∧ t.params = s.params ∧ t.inputs.busWait = s.inputs.busWait ∧
      (∀ va, t.icLine va = { s.icLine va with valid := (t.icLine va).valid }) ∧
      (∀ va, (t.icLine va).valid = true ↔ (s.icLine va).valid = true ∧ ∀ a pa, (a, pa) ∈ s.inputs.inval.headD [] →
        a.extractLsb' 5 9 = va.extractLsb' 5 9 → (s.icLine va).ptag ≠ pa.extractLsb' 12 20) ∧
      t.inputs.inval = s.inputs.inval.tail

/-- R762, R764: a stage that receives a slot that is no instruction (a bubble, a killed or a faulted slot) copies its header on
and does nothing else; RF gives a faulted slot the delay-slot flag EX has noted. What such a slot holds besides its header is the
model's (log entry 29). -/
def Obligations.FaultedSlotPropagates : Prop :=
  ∀ s : State, s.pipe.squash = false →
    (s.pipe.exdc.hd.live = false →
      stageDc s = .go { s with pipe := { s.pipe with dcwb := .ofHeader s.pipe.exdc.hd } }) ∧
    (s.pipe.rfex.hd.live = false →
      stageEx s = .go { s with
        pipe := { s.pipe with exdc := .ofHeader s.pipe.rfex.hd, exBranch := false, exKill := false, exEret := false }
        hz := { s.hz with icBefore := none } }) ∧
    (s.pipe.icrf.hd.live = false → s.pipe.holdFront = false → s.pipe.exEret = false →
      (s.pipe.icrf.hd.faulted = true → stageRf s = .go { s with pipe := { s.pipe with
        rfex := .ofHeader { s.pipe.icrf.hd with cause := { s.pipe.icrf.hd.cause with bd := s.pipe.exBranch } } } }) ∧
      (s.pipe.icrf.hd.faulted = false → stageRf s = .go { s with pipe := { s.pipe with
        rfex := .ofHeader s.pipe.icrf.hd } })) ∧
    (s.pipe.dcwb.hd.live = false → s.pipe.dcwb.hd.faulted = false → stageWb s = .go s)

/-- R765: an operand is 0 for register 0, the result in the DC→WB latch when the instruction there writes the register, and
the register file otherwise. -/
def Obligations.OperandForwarding : Prop :=
  ∀ (s : State) (h : Header) (r : RegNo),
    (exView s h).readReg r =
      if r = 0#5 then 0#64
      else if s.pipe.dcwb.hd.live = true ∧ s.pipe.dcwb.dest = r then s.pipe.dcwb.result
      else s.readReg r

/-! ## The outcomes of a fetch -/

/-- R140, R141, R153, R160, R232, R238, R252, R800: what a fetch answers, from the pc, the translation, the hazard windows,
the byte order and the bookkeeping; and what state it leaves. A CP0 or TLB write refuses the next CP0_HAZARD_WINDOW fetches
whose translation it changes, and no other; a store refuses the two fetches behind it that meet its bytes. The order among
refusals, a misaligned pc before them, is the model's (log entry 13); State.age is the model's count of one instruction (log entry 8). -/
def Obligations.FetchOutcomes : Prop :=
  (∀ (b f : State) (w : Word32), fetch b = .word w f → ∃ seg pa cached,
    translate b.transCtx b.pc .fetch = .ok seg pa cached ∧
    f = { b with activeSeg := seg, icache := f.icache, draws := f.draws } ∧ b.draws ≤ f.draws ∧
    (f.icache = b.icache ∨ (cached = true ∧ b.fetchProbe b.pc pa = none ∧
      ∃ data, f.icache = (b.icFillWith b.pc pa data).icache))) ∧
  (∀ b : State,
    let st := b.cp0.status
    let be := b.cp0.config.getLsbD 15
    let re := userMode st && st.getLsbD 25
    (b.pc.toNat % 4 ≠ 0 → fetch b = .raise (.addrError .fetch b.pc)) ∧
    (b.pc.toNat % 4 = 0 →
      (st.extractLsb' 3 2 = 3#2 → st.getLsbD 1 = false → st.getLsbD 2 = false → fetch b = .stop .impossibleMode) ∧
      (st.getLsbD 2 = true → st.getLsbD 7 = true → 2 ^ 31 ≤ b.pc.toNat → b.pc.toNat < 2 ^ 40 →
        fetch b = .stop .erlXkusegUpper) ∧
      (∀ e, translate b.transCtx b.pc .fetch = .raise e → cp0HazardAt b.hz b.pc = false → fetch b = .raise e) ∧
      (∀ seg pa cached, translate b.transCtx b.pc .fetch = .ok seg pa cached → cp0HazardAt b.hz b.pc = false →
        (be = false → fetch b = .stop .littleEndian) ∧
        (be = true → re = true → fetch b = .stop .reverseEndian) ∧
        (be = true → re = false →
          ((∃ h ∈ b.hz.stores, h.addr < pa.toNat + 4 ∧ pa.toNat < h.addr + h.size) → fetch b = .stop .storeToFetched) ∧
          ((∀ h ∈ b.hz.stores, ¬ (h.addr < pa.toNat + 4 ∧ pa.toNat < h.addr + h.size)) →
            (cached = false →
              ((∃ l ∈ b.dDirty, l < pa.toNat + 4 ∧ pa.toNat < l + 16) → fetch b = .stop .fetchOfDirtyLine) ∧
              ((∀ l ∈ b.dDirty, ¬ (l < pa.toNat + 4 ∧ pa.toNat < l + 16)) →
                (Touches b .read .error pa.toNat 4 → fetch b = .raise .fetchBusError) ∧
                (¬ Touches b .read .error pa.toNat 4 → ∃ w f, fetch b = .word w f))) ∧
            (cached = true →
              (∀ l, b.fetchProbe b.pc pa = some l → ∃ w f, fetch b = .word w f) ∧
              (b.fetchProbe b.pc pa = none →
                ((∃ l ∈ b.dDirty, l < lineBase pa + 32 ∧ lineBase pa < l + 16) → fetch b = .stop .fetchOfDirtyLine) ∧
                ((∀ l ∈ b.dDirty, ¬ (l < lineBase pa + 32 ∧ lineBase pa < l + 16)) →
                  (Touches b .read .error (lineBase pa) 32 → fetch b = .raise .fetchBusError) ∧
                  (¬ Touches b .read .error (lineBase pa) 32 → ∃ w f, fetch b = .word w f))))))))) ∧
  (∀ (s t : State) (rt n : RegNo) (i : Instr) (pc : Word) (k : Nat), cp0Usable s.cp0.status = true →
    ops64Allowed s.cp0.status = true → s.params.noopQuirks = false → n ∈ [6#5, 10#5, 12#5, 16#5] →
    i ∈ [Instr.mtc0 rt n, .dmtc0 rt n, .tlbwi, .tlbwr] → exec i s = .next t → pc.toNat % 4 = 0 →
    let u : State := { Nat.repeat State.age k t with pc := pc }
    (k < s.params.cp0HazardWindow → (∀ r, translate t.transCtx pc .fetch ≠ .stop r) →
      translate s.transCtx pc .fetch ≠ translate t.transCtx pc .fetch → fetch u = .stop .cp0Hazard) ∧
    (s.params.cp0HazardWindow ≤ k → s.hz.cp0 = [] → fetch u ≠ .stop .cp0Hazard)) ∧
  (∀ (b : State) (k : Nat) (h : RecentStore), 0 < k →
    (h ∈ (Nat.repeat State.age k b).hz.stores ↔ 0 < h.left ∧ { h with left := h.left + k } ∈ b.hz.stores))
end

