-- ==== Sys2Proof/Laws/Encode.lean ====
section
/-! SUPPORT. The fields of an encoded word, so that the statements about the encoding are proved without unfolding the
formats: a bit slice of an append is a slice of the part it lies in. -/

namespace Sys2Proof

/-- A slice inside the low part of an append. -/
theorem extract_append_low {n m : Nat} (a : BitVec n) (b : BitVec m) (lo w : Nat) (h : lo + w ≤ m) :
    (a ++ b).extractLsb' lo w = b.extractLsb' lo w := by
  ext i hi
  simp only [BitVec.getElem_extractLsb', BitVec.getLsbD_append]
  rw [if_pos (by omega)]

/-- A slice inside the high part of an append. -/
theorem extract_append_high {n m : Nat} (a : BitVec n) (b : BitVec m) (lo w : Nat) (h : m ≤ lo) :
    (a ++ b).extractLsb' lo w = a.extractLsb' (lo - m) w := by
  ext i hi
  simp only [BitVec.getElem_extractLsb', BitVec.getLsbD_append]
  rw [if_neg (by omega)]
  congr 1
  omega

/-- The whole of a vector. -/
theorem extract_whole {n : Nat} (a : BitVec n) : a.extractLsb' 0 n = a := by
  ext i hi
  simp

/-! ## R-type (R261) -/

@[simp] theorem fieldOp_encR (rs rt rd : RegNo) (sa : BitVec 5) (funct : BitVec 6) : fieldOp (encR rs rt rd sa funct) = 0#6 := by
  simp (disch := omega) only [fieldOp, encR, extract_append_high, extract_whole, Nat.reduceSub]

@[simp] theorem fieldRs_encR (rs rt rd : RegNo) (sa : BitVec 5) (funct : BitVec 6) : fieldRs (encR rs rt rd sa funct) = rs := by
  simp (disch := omega) only [fieldRs, encR, extract_append_low, extract_append_high, extract_whole, Nat.reduceSub]

@[simp] theorem fieldRt_encR (rs rt rd : RegNo) (sa : BitVec 5) (funct : BitVec 6) : fieldRt (encR rs rt rd sa funct) = rt := by
  simp (disch := omega) only [fieldRt, encR, extract_append_low, extract_append_high, extract_whole, Nat.reduceSub]

@[simp] theorem fieldRd_encR (rs rt rd : RegNo) (sa : BitVec 5) (funct : BitVec 6) : fieldRd (encR rs rt rd sa funct) = rd := by
  simp (disch := omega) only [fieldRd, encR, extract_append_low, extract_append_high, extract_whole, Nat.reduceSub]

@[simp] theorem fieldSa_encR (rs rt rd : RegNo) (sa : BitVec 5) (funct : BitVec 6) : fieldSa (encR rs rt rd sa funct) = sa := by
  simp (disch := omega) only [fieldSa, encR, extract_append_low, extract_append_high, extract_whole, Nat.reduceSub]

@[simp] theorem fieldFunct_encR (rs rt rd : RegNo) (sa : BitVec 5) (funct : BitVec 6) : fieldFunct (encR rs rt rd sa funct) = funct := by
  simp (disch := omega) only [fieldFunct, encR, extract_append_low, extract_whole]

/-! ## I-type (R261) -/

@[simp] theorem fieldOp_encI (op : BitVec 6) (rs rt : RegNo) (imm : BitVec 16) : fieldOp (encI op rs rt imm) = op := by
  simp (disch := omega) only [fieldOp, encI, extract_append_high, extract_whole, Nat.reduceSub]

@[simp] theorem fieldRs_encI (op : BitVec 6) (rs rt : RegNo) (imm : BitVec 16) : fieldRs (encI op rs rt imm) = rs := by
  simp (disch := omega) only [fieldRs, encI, extract_append_low, extract_append_high, extract_whole, Nat.reduceSub]

@[simp] theorem fieldRt_encI (op : BitVec 6) (rs rt : RegNo) (imm : BitVec 16) : fieldRt (encI op rs rt imm) = rt := by
  simp (disch := omega) only [fieldRt, encI, extract_append_low, extract_append_high, extract_whole, Nat.reduceSub]

@[simp] theorem fieldImm_encI (op : BitVec 6) (rs rt : RegNo) (imm : BitVec 16) : fieldImm (encI op rs rt imm) = imm := by
  simp (disch := omega) only [fieldImm, encI, extract_append_low, extract_whole]

/-! ## The COP0 forms (R268) -/

@[simp] theorem fieldOp_encCop0 (sub : BitVec 5) (rt rd : RegNo) : fieldOp (encCop0 sub rt rd) = 0x10#6 := by
  simp (disch := omega) only [fieldOp, encCop0, extract_append_high, extract_whole, Nat.reduceSub]

@[simp] theorem fieldRs_encCop0 (sub : BitVec 5) (rt rd : RegNo) : fieldRs (encCop0 sub rt rd) = sub := by
  simp (disch := omega) only [fieldRs, encCop0, extract_append_low, extract_append_high, extract_whole, Nat.reduceSub]

@[simp] theorem fieldRt_encCop0 (sub : BitVec 5) (rt rd : RegNo) : fieldRt (encCop0 sub rt rd) = rt := by
  simp (disch := omega) only [fieldRt, encCop0, extract_append_low, extract_append_high, extract_whole, Nat.reduceSub]

@[simp] theorem fieldRd_encCop0 (sub : BitVec 5) (rt rd : RegNo) : fieldRd (encCop0 sub rt rd) = rd := by
  simp (disch := omega) only [fieldRd, encCop0, extract_append_low, extract_append_high, extract_whole, Nat.reduceSub]

@[simp] theorem fieldOp_encCo (funct : BitVec 6) : fieldOp (encCo funct) = 0x10#6 := by
  simp (disch := omega) only [fieldOp, encCo, extract_append_high, extract_whole, Nat.reduceSub]

@[simp] theorem fieldFunct_encCo (funct : BitVec 6) : fieldFunct (encCo funct) = funct := by
  simp (disch := omega) only [fieldFunct, encCo, extract_append_low, extract_whole]

/-! ## The words with a long operand (R262, R269) -/

@[simp] theorem fieldOp_wide (op : BitVec 6) (x : BitVec 26) : fieldOp (op ++ x) = op := by
  simp (disch := omega) only [fieldOp, extract_append_high, extract_whole, Nat.reduceSub]

@[simp] theorem fieldTarget_wide (op : BitVec 6) (x : BitVec 26) : fieldTarget (op ++ x) = x := by
  simp (disch := omega) only [fieldTarget, extract_append_low, extract_whole]

@[simp] theorem fieldOp_code20 (code : BitVec 20) (funct : BitVec 6) : fieldOp (0#6 ++ code ++ funct) = 0#6 := by
  simp (disch := omega) only [fieldOp, extract_append_high, extract_whole, Nat.reduceSub]

@[simp] theorem fieldFunct_code20 (code : BitVec 20) (funct : BitVec 6) : fieldFunct (0#6 ++ code ++ funct) = funct := by
  simp (disch := omega) only [fieldFunct, extract_append_low, extract_whole]

@[simp] theorem fieldCode20_code20 (code : BitVec 20) (funct : BitVec 6) : fieldCode20 (0#6 ++ code ++ funct) = code := by
  simp (disch := omega) only [fieldCode20, extract_append_low, extract_append_high, extract_whole, Nat.reduceSub]

@[simp] theorem fieldOp_code10 (rs rt : RegNo) (code : BitVec 10) (funct : BitVec 6) : fieldOp (0#6 ++ rs ++ rt ++ code ++ funct) = 0#6 := by
  simp (disch := omega) only [fieldOp, extract_append_high, extract_whole, Nat.reduceSub]

@[simp] theorem fieldRs_code10 (rs rt : RegNo) (code : BitVec 10) (funct : BitVec 6) : fieldRs (0#6 ++ rs ++ rt ++ code ++ funct) = rs := by
  simp (disch := omega) only [fieldRs, extract_append_low, extract_append_high, extract_whole, Nat.reduceSub]

@[simp] theorem fieldRt_code10 (rs rt : RegNo) (code : BitVec 10) (funct : BitVec 6) : fieldRt (0#6 ++ rs ++ rt ++ code ++ funct) = rt := by
  simp (disch := omega) only [fieldRt, extract_append_low, extract_append_high, extract_whole, Nat.reduceSub]

@[simp] theorem fieldCode10_code10 (rs rt : RegNo) (code : BitVec 10) (funct : BitVec 6) : fieldCode10 (0#6 ++ rs ++ rt ++ code ++ funct) = code := by
  simp (disch := omega) only [fieldCode10, extract_append_low, extract_append_high, extract_whole, Nat.reduceSub]

@[simp] theorem fieldFunct_code10 (rs rt : RegNo) (code : BitVec 10) (funct : BitVec 6) : fieldFunct (0#6 ++ rs ++ rt ++ code ++ funct) = funct := by
  simp (disch := omega) only [fieldFunct, extract_append_low, extract_whole]

end Sys2Proof
end

