-- ==== Sys2Proof/Laws/Memory.lean ====
section
/-! SUPPORT. The laws of memory: a byte read after a write, the canonical form kept, and the same for multi-byte accesses
(R13, R140, R142). -/

namespace Sys2Proof.Machine

/-- Below the canonical form's start nothing is listed. -/
theorem memRead_below {m : List Host.Cell} {lo x : Nat} (h : memWfFrom lo m = true) (hx : x < lo) :
    memRead m x = memDefault := by
  induction m generalizing lo with
  | nil => rfl
  | cons c rest ih =>
    obtain ⟨a, b⟩ := c
    simp only [memWfFrom, Bool.and_eq_true, decide_eq_true_eq] at h
    have hne : a ≠ x := by omega
    simp only [memRead, if_neg hne]
    exact ih h.2 (by omega)

/-- A write leaves every other address alone. -/
theorem memRead_memWrite_ne (m : List Host.Cell) {x y : Nat} (v : Byte) (h : y ≠ x) :
    memRead (memWrite m x v) y = memRead m y := by
  induction m with
  | nil => unfold memWrite; split <;> simp [memRead, Ne.symm h]
  | cons c rest ih =>
    obtain ⟨a, b⟩ := c
    unfold memWrite
    split
    · simp only [memRead, ih]
    · split
      · next hax =>
        subst hax
        split <;> simp [memRead, Ne.symm h]
      · split <;> simp [memRead, Ne.symm h]

/-- A read after a write to the same address gives the value written. -/
theorem memRead_memWrite_same {m : List Host.Cell} {lo : Nat} (x : Nat) (v : Byte) (h : memWfFrom lo m = true) :
    memRead (memWrite m x v) x = v := by
  induction m generalizing lo with
  | nil => unfold memWrite; split <;> simp_all [memRead]
  | cons c rest ih =>
    obtain ⟨a, b⟩ := c
    simp only [memWfFrom, Bool.and_eq_true, decide_eq_true_eq] at h
    unfold memWrite
    split
    · have hne : a ≠ x := by omega
      simp only [memRead, if_neg hne]
      exact ih h.2
    · split
      · next hax =>
        subst hax
        split
        · next hv => rw [hv]; exact memRead_below h.2 (by omega)
        · simp [memRead]
      · split
        · next hv =>
          have hne : a ≠ x := by omega
          simp only [memRead, if_neg hne, hv]
          exact memRead_below h.2 (by omega)
        · simp [memRead]

/-- A write keeps the canonical order. -/
theorem memWfFrom_memWrite {m : List Host.Cell} {lo x : Nat} (v : Byte) (h : memWfFrom lo m = true) (hx : lo ≤ x) :
    memWfFrom lo (memWrite m x v) = true := by
  induction m generalizing lo with
  | nil => unfold memWrite; split <;> simp_all [memWfFrom]
  | cons c rest ih =>
    obtain ⟨a, b⟩ := c
    simp only [memWfFrom, Bool.and_eq_true, decide_eq_true_eq] at h
    obtain ⟨⟨hlo, hb⟩, hrest⟩ := h
    have weaken : ∀ {l : List Host.Cell} {p q : Nat}, q ≤ p → memWfFrom p l = true → memWfFrom q l = true := by
      intro l p q hpq hl
      cases l with
      | nil => rfl
      | cons d r =>
        obtain ⟨e, f⟩ := d
        simp only [memWfFrom, Bool.and_eq_true, decide_eq_true_eq] at hl ⊢
        exact ⟨⟨by omega, hl.1.2⟩, hl.2⟩
    unfold memWrite
    split
    · simp only [memWfFrom, Bool.and_eq_true, decide_eq_true_eq]
      exact ⟨⟨hlo, hb⟩, ih hrest (by omega)⟩
    · split
      · next hax =>
        subst hax
        split
        · exact weaken (by omega) hrest
        · next hv =>
          simp only [memWfFrom, Bool.and_eq_true, decide_eq_true_eq, bne_iff_ne, ne_eq]
          exact ⟨⟨hx, hv⟩, hrest⟩
      · split
        · simp only [memWfFrom, Bool.and_eq_true, decide_eq_true_eq]
          exact ⟨⟨hlo, hb⟩, hrest⟩
        · next hv =>
          simp only [memWfFrom, Bool.and_eq_true, decide_eq_true_eq, bne_iff_ne, ne_eq]
          exact ⟨⟨hx, hv⟩, ⟨by omega, by simpa using hb⟩, hrest⟩

/-- The addresses a write lists are those listed before and the one written. -/
theorem memWrite_addr {m : List Host.Cell} {x : Nat} {v : Byte} {c : Host.Cell} (h : c ∈ memWrite m x v) :
    c ∈ m ∨ c.1 = x := by
  induction m with
  | nil =>
    unfold memWrite at h
    split at h <;> simp_all
  | cons d rest ih =>
    obtain ⟨a, b⟩ := d
    unfold memWrite at h
    split at h
    · rcases List.mem_cons.mp h with h | h
      · exact .inl (h ▸ List.mem_cons_self)
      · rcases ih h with h | h
        · exact .inl (List.mem_cons_of_mem _ h)
        · exact .inr h
    · split at h
      · split at h
        · exact .inl (List.mem_cons_of_mem _ h)
        · rcases List.mem_cons.mp h with h | h
          · exact .inr (by rw [h])
          · exact .inl (List.mem_cons_of_mem _ h)
      · split at h
        · exact .inl h
        · rcases List.mem_cons.mp h with h | h
          · exact .inr (by rw [h])
          · exact .inl h

/-- A write inside the physical space keeps the canonical form. -/
theorem wf_memWrite {m : List Host.Cell} {x : Nat} (v : Byte) (h : Memory.wf m = true) (hx : x < 2 ^ 32) :
    Memory.wf (memWrite m x v) = true := by
  simp only [Memory.wf, Bool.and_eq_true, List.all_eq_true, decide_eq_true_eq] at h ⊢
  refine ⟨memWfFrom_memWrite v h.1 (Nat.zero_le x), fun c hc => ?_⟩
  rcases memWrite_addr hc with hc | hc
  · exact h.2 c hc
  · omega

/-- A multi-byte write inside the physical space keeps the canonical form. -/
theorem wf_writeBE {m : List Host.Cell} {a : Nat} (n v : Nat) (h : Memory.wf m = true) (ha : a + n ≤ 2 ^ 32) :
    Memory.wf (writeBE m a n v) = true := by
  induction n generalizing v with
  | zero => exact h
  | succ n ih => exact wf_memWrite _ (ih (v / 256) (by omega)) (by omega)

/-- A multi-byte write keeps the canonical order. -/
theorem memWfFrom_writeBE {m : List Host.Cell} (a n v : Nat) (h : memWfFrom 0 m = true) :
    memWfFrom 0 (writeBE m a n v) = true := by
  induction n generalizing v with
  | zero => exact h
  | succ n ih => exact memWfFrom_memWrite _ (ih (v / 256)) (Nat.zero_le _)

/-- A multi-byte write leaves the bytes outside it alone. -/
theorem memRead_writeBE_outside (m : List Host.Cell) {a x : Nat} (n v : Nat) (h : x < a ∨ a + n ≤ x) :
    memRead (writeBE m a n v) x = memRead m x := by
  induction n generalizing v with
  | zero => rfl
  | succ n ih =>
    rw [writeBE, memRead_memWrite_ne _ _ (by omega)]
    exact ih (v / 256) (by omega)

/-- A multi-byte write puts its bytes in big-endian order. -/
theorem memRead_writeBE_inside {m : List Host.Cell} (a n v : Nat) {i : Nat} (h : memWfFrom 0 m = true) (hi : i < n) :
    memRead (writeBE m a n v) (a + i) = BitVec.ofNat 8 (v / 256 ^ (n - 1 - i)) := by
  induction n generalizing v with
  | zero => omega
  | succ n ih =>
    rw [writeBE]
    by_cases hin : i = n
    · subst hin
      rw [memRead_memWrite_same _ _ (memWfFrom_writeBE a i (v / 256) h)]
      simp only [Nat.add_sub_cancel, Nat.sub_self, Nat.pow_zero, Nat.div_one]
      apply BitVec.eq_of_toNat_eq
      simp only [BitVec.toNat_ofNat]
      omega
    · rw [memRead_memWrite_ne _ _ (by omega), ih (v / 256) (by omega)]
      congr 1
      rw [Nat.div_div_eq_div_mul]
      congr 1
      have : n + 1 - 1 - i = (n - 1 - i) + 1 := by omega
      rw [this, Nat.pow_succ, Nat.mul_comm]

/-- A read depends only on the bytes it reads. -/
theorem readBE_congr {m m' : List Host.Cell} {a n : Nat} (h : ∀ i, i < n → memRead m (a + i) = memRead m' (a + i)) :
    readBE m a n = readBE m' a n := by
  induction n with
  | zero => rfl
  | succ n ih =>
    rw [readBE, readBE, ih (fun i hi => h i (by omega)), h n (by omega)]

/-- A read after a write of the same bytes gives the value written, as wide as the access (R142). -/
theorem readBE_writeBE {m : List Host.Cell} (a n v : Nat) (h : memWfFrom 0 m = true) :
    readBE (writeBE m a n v) a n = v % 256 ^ n := by
  induction n generalizing v with
  | zero => simp [readBE, Nat.mod_one]
  | succ n ih =>
    rw [readBE, writeBE, memRead_memWrite_same _ _ (memWfFrom_writeBE a n (v / 256) h)]
    have hcong : readBE (memWrite (writeBE m a n (v / 256)) (a + n) (BitVec.ofNat 8 (v % 256))) a n =
        readBE (writeBE m a n (v / 256)) a n := by
      apply readBE_congr
      intro i hi
      exact memRead_memWrite_ne _ _ (by omega)
    have hpow : 256 ^ (n + 1) = 256 * 256 ^ n := by rw [Nat.pow_succ, Nat.mul_comm]
    have hlow : (BitVec.ofNat 8 (v % 256)).toNat = v % 256 := by
      rw [BitVec.toNat_ofNat]
      exact Nat.mod_eq_of_lt (Nat.mod_lt _ (by decide))
    rw [hcong, ih (v / 256), hlow, hpow, Nat.mod_mul]
    omega

/-- What a multi-byte read gives fits its width. -/
theorem readBE_lt (m : List Host.Cell) (a n : Nat) : readBE m a n < 256 ^ n := by
  induction n with
  | zero => simp [readBE]
  | succ n ih =>
    have hb := (memRead m (a + n)).isLt
    rw [readBE, Nat.pow_succ]
    omega

end Sys2Proof.Machine
end

