-- ==== Sys2Proof/Laws/State.lean ====
section
/-! SUPPORT. One lemma per field and per update of the state: a field an update does not touch keeps its value. -/

namespace Sys2Proof.Machine

@[simp] theorem writeReg_hi (s : State) (r : RegNo) (v : Word) :
    (s.writeReg r v).hi = s.hi := by unfold State.writeReg; split <;> rfl
@[simp] theorem writeReg_lo (s : State) (r : RegNo) (v : Word) :
    (s.writeReg r v).lo = s.lo := by unfold State.writeReg; split <;> rfl
@[simp] theorem writeReg_pc (s : State) (r : RegNo) (v : Word) :
    (s.writeReg r v).pc = s.pc := by unfold State.writeReg; split <;> rfl
@[simp] theorem writeReg_delay (s : State) (r : RegNo) (v : Word) :
    (s.writeReg r v).delay = s.delay := by unfold State.writeReg; split <;> rfl
@[simp] theorem writeReg_llbit (s : State) (r : RegNo) (v : Word) :
    (s.writeReg r v).llbit = s.llbit := by unfold State.writeReg; split <;> rfl
@[simp] theorem writeReg_cp0 (s : State) (r : RegNo) (v : Word) :
    (s.writeReg r v).cp0 = s.cp0 := by unfold State.writeReg; split <;> rfl
@[simp] theorem writeReg_tlb (s : State) (r : RegNo) (v : Word) :
    (s.writeReg r v).tlb = s.tlb := by unfold State.writeReg; split <;> rfl
@[simp] theorem writeReg_icache (s : State) (r : RegNo) (v : Word) :
    (s.writeReg r v).icache = s.icache := by unfold State.writeReg; split <;> rfl
@[simp] theorem writeReg_activeSeg (s : State) (r : RegNo) (v : Word) :
    (s.writeReg r v).activeSeg = s.activeSeg := by unfold State.writeReg; split <;> rfl
@[simp] theorem writeReg_pipe (s : State) (r : RegNo) (v : Word) :
    (s.writeReg r v).pipe = s.pipe := by unfold State.writeReg; split <;> rfl
@[simp] theorem writeReg_coldReset (s : State) (r : RegNo) (v : Word) :
    (s.writeReg r v).coldReset = s.coldReset := by unfold State.writeReg; split <;> rfl
@[simp] theorem writeReg_dDirty (s : State) (r : RegNo) (v : Word) :
    (s.writeReg r v).dDirty = s.dDirty := by unfold State.writeReg; split <;> rfl
@[simp] theorem writeReg_dMaybe (s : State) (r : RegNo) (v : Word) :
    (s.writeReg r v).dMaybe = s.dMaybe := by unfold State.writeReg; split <;> rfl
@[simp] theorem writeReg_countPhase (s : State) (r : RegNo) (v : Word) :
    (s.writeReg r v).countPhase = s.countPhase := by unfold State.writeReg; split <;> rfl
@[simp] theorem writeReg_mem (s : State) (r : RegNo) (v : Word) :
    (s.writeReg r v).mem = s.mem := by unfold State.writeReg; split <;> rfl
@[simp] theorem writeReg_cp1 (s : State) (r : RegNo) (v : Word) :
    (s.writeReg r v).cp1 = s.cp1 := by unfold State.writeReg; split <;> rfl
@[simp] theorem writeReg_params (s : State) (r : RegNo) (v : Word) :
    (s.writeReg r v).params = s.params := by unfold State.writeReg; split <;> rfl
@[simp] theorem writeReg_inputs (s : State) (r : RegNo) (v : Word) :
    (s.writeReg r v).inputs = s.inputs := by unfold State.writeReg; split <;> rfl
@[simp] theorem writeReg_recency (s : State) (r : RegNo) (v : Word) :
    (s.writeReg r v).recency = s.recency := by unfold State.writeReg; split <;> rfl
@[simp] theorem writeReg_hz (s : State) (r : RegNo) (v : Word) :
    (s.writeReg r v).hz = s.hz := by unfold State.writeReg; split <;> rfl
@[simp] theorem writeReg_draws (s : State) (r : RegNo) (v : Word) :
    (s.writeReg r v).draws = s.draws := by unfold State.writeReg; split <;> rfl

@[simp] theorem drew_gpr (s : State) (n : Nat) : (s.drew n).gpr = s.gpr := rfl
@[simp] theorem drew_hi (s : State) (n : Nat) : (s.drew n).hi = s.hi := rfl
@[simp] theorem drew_lo (s : State) (n : Nat) : (s.drew n).lo = s.lo := rfl
@[simp] theorem drew_pc (s : State) (n : Nat) : (s.drew n).pc = s.pc := rfl
@[simp] theorem drew_delay (s : State) (n : Nat) : (s.drew n).delay = s.delay := rfl
@[simp] theorem drew_llbit (s : State) (n : Nat) : (s.drew n).llbit = s.llbit := rfl
@[simp] theorem drew_cp0 (s : State) (n : Nat) : (s.drew n).cp0 = s.cp0 := rfl
@[simp] theorem drew_tlb (s : State) (n : Nat) : (s.drew n).tlb = s.tlb := rfl
@[simp] theorem drew_icache (s : State) (n : Nat) : (s.drew n).icache = s.icache := rfl
@[simp] theorem drew_activeSeg (s : State) (n : Nat) : (s.drew n).activeSeg = s.activeSeg := rfl
@[simp] theorem drew_pipe (s : State) (n : Nat) : (s.drew n).pipe = s.pipe := rfl
@[simp] theorem drew_coldReset (s : State) (n : Nat) : (s.drew n).coldReset = s.coldReset := rfl
@[simp] theorem drew_dDirty (s : State) (n : Nat) : (s.drew n).dDirty = s.dDirty := rfl
@[simp] theorem drew_dMaybe (s : State) (n : Nat) : (s.drew n).dMaybe = s.dMaybe := rfl
@[simp] theorem drew_countPhase (s : State) (n : Nat) : (s.drew n).countPhase = s.countPhase := rfl
@[simp] theorem drew_mem (s : State) (n : Nat) : (s.drew n).mem = s.mem := rfl
@[simp] theorem drew_cp1 (s : State) (n : Nat) : (s.drew n).cp1 = s.cp1 := rfl
@[simp] theorem drew_params (s : State) (n : Nat) : (s.drew n).params = s.params := rfl
@[simp] theorem drew_inputs (s : State) (n : Nat) : (s.drew n).inputs = s.inputs := rfl
@[simp] theorem drew_recency (s : State) (n : Nat) : (s.drew n).recency = s.recency := rfl
@[simp] theorem drew_hz (s : State) (n : Nat) : (s.drew n).hz = s.hz := rfl

@[simp] theorem afterRead_gpr (s : State) (a n : Nat) : (s.afterRead a n).gpr = s.gpr := rfl
@[simp] theorem afterRead_hi (s : State) (a n : Nat) : (s.afterRead a n).hi = s.hi := rfl
@[simp] theorem afterRead_lo (s : State) (a n : Nat) : (s.afterRead a n).lo = s.lo := rfl
@[simp] theorem afterRead_pc (s : State) (a n : Nat) : (s.afterRead a n).pc = s.pc := rfl
@[simp] theorem afterRead_delay (s : State) (a n : Nat) : (s.afterRead a n).delay = s.delay := rfl
@[simp] theorem afterRead_llbit (s : State) (a n : Nat) : (s.afterRead a n).llbit = s.llbit := rfl
@[simp] theorem afterRead_cp0 (s : State) (a n : Nat) : (s.afterRead a n).cp0 = s.cp0 := rfl
@[simp] theorem afterRead_tlb (s : State) (a n : Nat) : (s.afterRead a n).tlb = s.tlb := rfl
@[simp] theorem afterRead_icache (s : State) (a n : Nat) : (s.afterRead a n).icache = s.icache := rfl
@[simp] theorem afterRead_activeSeg (s : State) (a n : Nat) : (s.afterRead a n).activeSeg = s.activeSeg := rfl
@[simp] theorem afterRead_pipe (s : State) (a n : Nat) : (s.afterRead a n).pipe = s.pipe := rfl
@[simp] theorem afterRead_coldReset (s : State) (a n : Nat) : (s.afterRead a n).coldReset = s.coldReset := rfl
@[simp] theorem afterRead_dDirty (s : State) (a n : Nat) : (s.afterRead a n).dDirty = s.dDirty := rfl
@[simp] theorem afterRead_dMaybe (s : State) (a n : Nat) : (s.afterRead a n).dMaybe = s.dMaybe := rfl
@[simp] theorem afterRead_countPhase (s : State) (a n : Nat) : (s.afterRead a n).countPhase = s.countPhase := rfl
@[simp] theorem afterRead_mem (s : State) (a n : Nat) : (s.afterRead a n).mem = s.mem := rfl
@[simp] theorem afterRead_cp1 (s : State) (a n : Nat) : (s.afterRead a n).cp1 = s.cp1 := rfl
@[simp] theorem afterRead_params (s : State) (a n : Nat) : (s.afterRead a n).params = s.params := rfl
@[simp] theorem afterRead_inputs (s : State) (a n : Nat) : (s.afterRead a n).inputs = s.inputs := rfl
@[simp] theorem afterRead_recency (s : State) (a n : Nat) : (s.afterRead a n).recency = s.recency := rfl
@[simp] theorem afterRead_hz (s : State) (a n : Nat) : (s.afterRead a n).hz = s.hz := rfl

@[simp] theorem retireRandom_gpr (s : State) :
    (s.retireRandom).gpr = s.gpr := by unfold State.retireRandom; split <;> rfl
@[simp] theorem retireRandom_hi (s : State) :
    (s.retireRandom).hi = s.hi := by unfold State.retireRandom; split <;> rfl
@[simp] theorem retireRandom_lo (s : State) :
    (s.retireRandom).lo = s.lo := by unfold State.retireRandom; split <;> rfl
@[simp] theorem retireRandom_pc (s : State) :
    (s.retireRandom).pc = s.pc := by unfold State.retireRandom; split <;> rfl
@[simp] theorem retireRandom_delay (s : State) :
    (s.retireRandom).delay = s.delay := by unfold State.retireRandom; split <;> rfl
@[simp] theorem retireRandom_llbit (s : State) :
    (s.retireRandom).llbit = s.llbit := by unfold State.retireRandom; split <;> rfl
@[simp] theorem retireRandom_tlb (s : State) :
    (s.retireRandom).tlb = s.tlb := by unfold State.retireRandom; split <;> rfl
@[simp] theorem retireRandom_icache (s : State) :
    (s.retireRandom).icache = s.icache := by unfold State.retireRandom; split <;> rfl
@[simp] theorem retireRandom_activeSeg (s : State) :
    (s.retireRandom).activeSeg = s.activeSeg := by unfold State.retireRandom; split <;> rfl
@[simp] theorem retireRandom_pipe (s : State) :
    (s.retireRandom).pipe = s.pipe := by unfold State.retireRandom; split <;> rfl
@[simp] theorem retireRandom_coldReset (s : State) :
    (s.retireRandom).coldReset = s.coldReset := by unfold State.retireRandom; split <;> rfl
@[simp] theorem retireRandom_dDirty (s : State) :
    (s.retireRandom).dDirty = s.dDirty := by unfold State.retireRandom; split <;> rfl
@[simp] theorem retireRandom_dMaybe (s : State) :
    (s.retireRandom).dMaybe = s.dMaybe := by unfold State.retireRandom; split <;> rfl
@[simp] theorem retireRandom_countPhase (s : State) :
    (s.retireRandom).countPhase = s.countPhase := by unfold State.retireRandom; split <;> rfl
@[simp] theorem retireRandom_mem (s : State) :
    (s.retireRandom).mem = s.mem := by unfold State.retireRandom; split <;> rfl
@[simp] theorem retireRandom_cp1 (s : State) :
    (s.retireRandom).cp1 = s.cp1 := by unfold State.retireRandom; split <;> rfl
@[simp] theorem retireRandom_params (s : State) :
    (s.retireRandom).params = s.params := by unfold State.retireRandom; split <;> rfl
@[simp] theorem retireRandom_inputs (s : State) :
    (s.retireRandom).inputs = s.inputs := by unfold State.retireRandom; split <;> rfl
@[simp] theorem retireRandom_recency (s : State) :
    (s.retireRandom).recency = s.recency := by unfold State.retireRandom; split <;> rfl
@[simp] theorem retireRandom_hz (s : State) :
    (s.retireRandom).hz = s.hz := by unfold State.retireRandom; split <;> rfl
@[simp] theorem retireRandom_draws (s : State) :
    (s.retireRandom).draws = s.draws := by unfold State.retireRandom; split <;> rfl

@[simp] theorem advance_gpr (s : State) (c : Ctl) :
    (s.advance c).gpr = s.gpr := by unfold State.advance; repeat (first | rfl | split)
@[simp] theorem advance_hi (s : State) (c : Ctl) :
    (s.advance c).hi = s.hi := by unfold State.advance; repeat (first | rfl | split)
@[simp] theorem advance_lo (s : State) (c : Ctl) :
    (s.advance c).lo = s.lo := by unfold State.advance; repeat (first | rfl | split)
@[simp] theorem advance_llbit (s : State) (c : Ctl) :
    (s.advance c).llbit = s.llbit := by unfold State.advance; repeat (first | rfl | split)
@[simp] theorem advance_cp0 (s : State) (c : Ctl) :
    (s.advance c).cp0 = s.cp0 := by unfold State.advance; repeat (first | rfl | split)
@[simp] theorem advance_tlb (s : State) (c : Ctl) :
    (s.advance c).tlb = s.tlb := by unfold State.advance; repeat (first | rfl | split)
@[simp] theorem advance_icache (s : State) (c : Ctl) :
    (s.advance c).icache = s.icache := by unfold State.advance; repeat (first | rfl | split)
@[simp] theorem advance_activeSeg (s : State) (c : Ctl) :
    (s.advance c).activeSeg = s.activeSeg := by unfold State.advance; repeat (first | rfl | split)
@[simp] theorem advance_pipe (s : State) (c : Ctl) :
    (s.advance c).pipe = s.pipe := by unfold State.advance; repeat (first | rfl | split)
@[simp] theorem advance_coldReset (s : State) (c : Ctl) :
    (s.advance c).coldReset = s.coldReset := by unfold State.advance; repeat (first | rfl | split)
@[simp] theorem advance_dDirty (s : State) (c : Ctl) :
    (s.advance c).dDirty = s.dDirty := by unfold State.advance; repeat (first | rfl | split)
@[simp] theorem advance_dMaybe (s : State) (c : Ctl) :
    (s.advance c).dMaybe = s.dMaybe := by unfold State.advance; repeat (first | rfl | split)
@[simp] theorem advance_countPhase (s : State) (c : Ctl) :
    (s.advance c).countPhase = s.countPhase := by unfold State.advance; repeat (first | rfl | split)
@[simp] theorem advance_mem (s : State) (c : Ctl) :
    (s.advance c).mem = s.mem := by unfold State.advance; repeat (first | rfl | split)
@[simp] theorem advance_cp1 (s : State) (c : Ctl) :
    (s.advance c).cp1 = s.cp1 := by unfold State.advance; repeat (first | rfl | split)
@[simp] theorem advance_params (s : State) (c : Ctl) :
    (s.advance c).params = s.params := by unfold State.advance; repeat (first | rfl | split)
@[simp] theorem advance_inputs (s : State) (c : Ctl) :
    (s.advance c).inputs = s.inputs := by unfold State.advance; repeat (first | rfl | split)
@[simp] theorem advance_recency (s : State) (c : Ctl) :
    (s.advance c).recency = s.recency := by unfold State.advance; repeat (first | rfl | split)
@[simp] theorem advance_hz (s : State) (c : Ctl) :
    (s.advance c).hz = s.hz.retire := by unfold State.advance; repeat (first | rfl | split)
@[simp] theorem advance_draws (s : State) (c : Ctl) :
    (s.advance c).draws = s.draws := by unfold State.advance; repeat (first | rfl | split)

@[simp] theorem writeBack_hi (d : RegNo) (v : Word) (l : Option PAddr) (e : Bool) (s : State) : (writeBack d v l e s).hi = s.hi := by
  unfold writeBack; cases l <;> cases e <;> simp
@[simp] theorem writeBack_lo (d : RegNo) (v : Word) (l : Option PAddr) (e : Bool) (s : State) : (writeBack d v l e s).lo = s.lo := by
  unfold writeBack; cases l <;> cases e <;> simp
@[simp] theorem writeBack_pc (d : RegNo) (v : Word) (l : Option PAddr) (e : Bool) (s : State) : (writeBack d v l e s).pc = s.pc := by
  unfold writeBack; cases l <;> cases e <;> simp
@[simp] theorem writeBack_delay (d : RegNo) (v : Word) (l : Option PAddr) (e : Bool) (s : State) : (writeBack d v l e s).delay = s.delay := by
  unfold writeBack; cases l <;> cases e <;> simp
@[simp] theorem writeBack_tlb (d : RegNo) (v : Word) (l : Option PAddr) (e : Bool) (s : State) : (writeBack d v l e s).tlb = s.tlb := by
  unfold writeBack; cases l <;> cases e <;> simp
@[simp] theorem writeBack_icache (d : RegNo) (v : Word) (l : Option PAddr) (e : Bool) (s : State) : (writeBack d v l e s).icache = s.icache := by
  unfold writeBack; cases l <;> cases e <;> simp
@[simp] theorem writeBack_activeSeg (d : RegNo) (v : Word) (l : Option PAddr) (e : Bool) (s : State) : (writeBack d v l e s).activeSeg = s.activeSeg := by
  unfold writeBack; cases l <;> cases e <;> simp
@[simp] theorem writeBack_pipe (d : RegNo) (v : Word) (l : Option PAddr) (e : Bool) (s : State) : (writeBack d v l e s).pipe = s.pipe := by
  unfold writeBack; cases l <;> cases e <;> simp
@[simp] theorem writeBack_coldReset (d : RegNo) (v : Word) (l : Option PAddr) (e : Bool) (s : State) : (writeBack d v l e s).coldReset = s.coldReset := by
  unfold writeBack; cases l <;> cases e <;> simp
@[simp] theorem writeBack_dDirty (d : RegNo) (v : Word) (l : Option PAddr) (e : Bool) (s : State) : (writeBack d v l e s).dDirty = s.dDirty := by
  unfold writeBack; cases l <;> cases e <;> simp
@[simp] theorem writeBack_dMaybe (d : RegNo) (v : Word) (l : Option PAddr) (e : Bool) (s : State) : (writeBack d v l e s).dMaybe = s.dMaybe := by
  unfold writeBack; cases l <;> cases e <;> simp
@[simp] theorem writeBack_countPhase (d : RegNo) (v : Word) (l : Option PAddr) (e : Bool) (s : State) : (writeBack d v l e s).countPhase = s.countPhase := by
  unfold writeBack; cases l <;> cases e <;> simp
@[simp] theorem writeBack_mem (d : RegNo) (v : Word) (l : Option PAddr) (e : Bool) (s : State) : (writeBack d v l e s).mem = s.mem := by
  unfold writeBack; cases l <;> cases e <;> simp
@[simp] theorem writeBack_cp1 (d : RegNo) (v : Word) (l : Option PAddr) (e : Bool) (s : State) : (writeBack d v l e s).cp1 = s.cp1 := by
  unfold writeBack; cases l <;> cases e <;> simp
@[simp] theorem writeBack_params (d : RegNo) (v : Word) (l : Option PAddr) (e : Bool) (s : State) : (writeBack d v l e s).params = s.params := by
  unfold writeBack; cases l <;> cases e <;> simp
@[simp] theorem writeBack_inputs (d : RegNo) (v : Word) (l : Option PAddr) (e : Bool) (s : State) : (writeBack d v l e s).inputs = s.inputs := by
  unfold writeBack; cases l <;> cases e <;> simp
@[simp] theorem writeBack_recency (d : RegNo) (v : Word) (l : Option PAddr) (e : Bool) (s : State) : (writeBack d v l e s).recency = s.recency := by
  unfold writeBack; cases l <;> cases e <;> simp
@[simp] theorem writeBack_hz (d : RegNo) (v : Word) (l : Option PAddr) (e : Bool) (s : State) : (writeBack d v l e s).hz = s.hz := by
  unfold writeBack; cases l <;> cases e <;> simp
@[simp] theorem writeBack_draws (d : RegNo) (v : Word) (l : Option PAddr) (e : Bool) (s : State) : (writeBack d v l e s).draws = s.draws := by
  unfold writeBack; cases l <;> cases e <;> simp

@[simp] theorem book_gpr (s : State) (st c : Bool) (pa : PAddr) :
    (s.book st c pa).gpr = s.gpr := by unfold State.book; split <;> rfl
@[simp] theorem book_hi (s : State) (st c : Bool) (pa : PAddr) :
    (s.book st c pa).hi = s.hi := by unfold State.book; split <;> rfl
@[simp] theorem book_lo (s : State) (st c : Bool) (pa : PAddr) :
    (s.book st c pa).lo = s.lo := by unfold State.book; split <;> rfl
@[simp] theorem book_pc (s : State) (st c : Bool) (pa : PAddr) :
    (s.book st c pa).pc = s.pc := by unfold State.book; split <;> rfl
@[simp] theorem book_delay (s : State) (st c : Bool) (pa : PAddr) :
    (s.book st c pa).delay = s.delay := by unfold State.book; split <;> rfl
@[simp] theorem book_llbit (s : State) (st c : Bool) (pa : PAddr) :
    (s.book st c pa).llbit = s.llbit := by unfold State.book; split <;> rfl
@[simp] theorem book_cp0 (s : State) (st c : Bool) (pa : PAddr) :
    (s.book st c pa).cp0 = s.cp0 := by unfold State.book; split <;> rfl
@[simp] theorem book_tlb (s : State) (st c : Bool) (pa : PAddr) :
    (s.book st c pa).tlb = s.tlb := by unfold State.book; split <;> rfl
@[simp] theorem book_icache (s : State) (st c : Bool) (pa : PAddr) :
    (s.book st c pa).icache = s.icache := by unfold State.book; split <;> rfl
@[simp] theorem book_activeSeg (s : State) (st c : Bool) (pa : PAddr) :
    (s.book st c pa).activeSeg = s.activeSeg := by unfold State.book; split <;> rfl
@[simp] theorem book_pipe (s : State) (st c : Bool) (pa : PAddr) :
    (s.book st c pa).pipe = s.pipe := by unfold State.book; split <;> rfl
@[simp] theorem book_coldReset (s : State) (st c : Bool) (pa : PAddr) :
    (s.book st c pa).coldReset = s.coldReset := by unfold State.book; split <;> rfl
@[simp] theorem book_countPhase (s : State) (st c : Bool) (pa : PAddr) :
    (s.book st c pa).countPhase = s.countPhase := by unfold State.book; split <;> rfl
@[simp] theorem book_mem (s : State) (st c : Bool) (pa : PAddr) :
    (s.book st c pa).mem = s.mem := by unfold State.book; split <;> rfl
@[simp] theorem book_cp1 (s : State) (st c : Bool) (pa : PAddr) :
    (s.book st c pa).cp1 = s.cp1 := by unfold State.book; split <;> rfl
@[simp] theorem book_params (s : State) (st c : Bool) (pa : PAddr) :
    (s.book st c pa).params = s.params := by unfold State.book; split <;> rfl
@[simp] theorem book_inputs (s : State) (st c : Bool) (pa : PAddr) :
    (s.book st c pa).inputs = s.inputs := by unfold State.book; split <;> rfl
@[simp] theorem book_recency (s : State) (st c : Bool) (pa : PAddr) :
    (s.book st c pa).recency = s.recency := by unfold State.book; split <;> rfl
@[simp] theorem book_hz (s : State) (st c : Bool) (pa : PAddr) :
    (s.book st c pa).hz = s.hz := by unfold State.book; split <;> rfl
@[simp] theorem book_draws (s : State) (st c : Bool) (pa : PAddr) :
    (s.book st c pa).draws = s.draws := by unfold State.book; split <;> rfl

@[simp] theorem noteCp0Write_gpr (s b : State) : (s.noteCp0Write b).gpr = s.gpr := rfl
@[simp] theorem noteCp0Write_hi (s b : State) : (s.noteCp0Write b).hi = s.hi := rfl
@[simp] theorem noteCp0Write_lo (s b : State) : (s.noteCp0Write b).lo = s.lo := rfl
@[simp] theorem noteCp0Write_pc (s b : State) : (s.noteCp0Write b).pc = s.pc := rfl
@[simp] theorem noteCp0Write_delay (s b : State) : (s.noteCp0Write b).delay = s.delay := rfl
@[simp] theorem noteCp0Write_llbit (s b : State) : (s.noteCp0Write b).llbit = s.llbit := rfl
@[simp] theorem noteCp0Write_cp0 (s b : State) : (s.noteCp0Write b).cp0 = s.cp0 := rfl
@[simp] theorem noteCp0Write_tlb (s b : State) : (s.noteCp0Write b).tlb = s.tlb := rfl
@[simp] theorem noteCp0Write_icache (s b : State) : (s.noteCp0Write b).icache = s.icache := rfl
@[simp] theorem noteCp0Write_activeSeg (s b : State) : (s.noteCp0Write b).activeSeg = s.activeSeg := rfl
@[simp] theorem noteCp0Write_pipe (s b : State) : (s.noteCp0Write b).pipe = s.pipe := rfl
@[simp] theorem noteCp0Write_coldReset (s b : State) : (s.noteCp0Write b).coldReset = s.coldReset := rfl
@[simp] theorem noteCp0Write_dDirty (s b : State) : (s.noteCp0Write b).dDirty = s.dDirty := rfl
@[simp] theorem noteCp0Write_dMaybe (s b : State) : (s.noteCp0Write b).dMaybe = s.dMaybe := rfl
@[simp] theorem noteCp0Write_countPhase (s b : State) : (s.noteCp0Write b).countPhase = s.countPhase := rfl
@[simp] theorem noteCp0Write_mem (s b : State) : (s.noteCp0Write b).mem = s.mem := rfl
@[simp] theorem noteCp0Write_cp1 (s b : State) : (s.noteCp0Write b).cp1 = s.cp1 := rfl
@[simp] theorem noteCp0Write_params (s b : State) : (s.noteCp0Write b).params = s.params := rfl
@[simp] theorem noteCp0Write_inputs (s b : State) : (s.noteCp0Write b).inputs = s.inputs := rfl
@[simp] theorem noteCp0Write_recency (s b : State) : (s.noteCp0Write b).recency = s.recency := rfl
@[simp] theorem noteCp0Write_draws (s b : State) : (s.noteCp0Write b).draws = s.draws := rfl

@[simp] theorem tlbWrite_gpr (s : State) (i : Nat) (e : TlbEntry) : (s.tlbWrite i e).gpr = s.gpr := rfl
@[simp] theorem tlbWrite_hi (s : State) (i : Nat) (e : TlbEntry) : (s.tlbWrite i e).hi = s.hi := rfl
@[simp] theorem tlbWrite_lo (s : State) (i : Nat) (e : TlbEntry) : (s.tlbWrite i e).lo = s.lo := rfl
@[simp] theorem tlbWrite_pc (s : State) (i : Nat) (e : TlbEntry) : (s.tlbWrite i e).pc = s.pc := rfl
@[simp] theorem tlbWrite_delay (s : State) (i : Nat) (e : TlbEntry) : (s.tlbWrite i e).delay = s.delay := rfl
@[simp] theorem tlbWrite_llbit (s : State) (i : Nat) (e : TlbEntry) : (s.tlbWrite i e).llbit = s.llbit := rfl
@[simp] theorem tlbWrite_cp0 (s : State) (i : Nat) (e : TlbEntry) : (s.tlbWrite i e).cp0 = s.cp0 := rfl
@[simp] theorem tlbWrite_icache (s : State) (i : Nat) (e : TlbEntry) : (s.tlbWrite i e).icache = s.icache := rfl
@[simp] theorem tlbWrite_activeSeg (s : State) (i : Nat) (e : TlbEntry) :
    (s.tlbWrite i e).activeSeg = s.activeSeg := rfl
@[simp] theorem tlbWrite_pipe (s : State) (i : Nat) (e : TlbEntry) : (s.tlbWrite i e).pipe = s.pipe := rfl
@[simp] theorem tlbWrite_coldReset (s : State) (i : Nat) (e : TlbEntry) :
    (s.tlbWrite i e).coldReset = s.coldReset := rfl
@[simp] theorem tlbWrite_dDirty (s : State) (i : Nat) (e : TlbEntry) : (s.tlbWrite i e).dDirty = s.dDirty := rfl
@[simp] theorem tlbWrite_dMaybe (s : State) (i : Nat) (e : TlbEntry) : (s.tlbWrite i e).dMaybe = s.dMaybe := rfl
@[simp] theorem tlbWrite_countPhase (s : State) (i : Nat) (e : TlbEntry) :
    (s.tlbWrite i e).countPhase = s.countPhase := rfl
@[simp] theorem tlbWrite_mem (s : State) (i : Nat) (e : TlbEntry) : (s.tlbWrite i e).mem = s.mem := rfl
@[simp] theorem tlbWrite_cp1 (s : State) (i : Nat) (e : TlbEntry) : (s.tlbWrite i e).cp1 = s.cp1 := rfl
@[simp] theorem tlbWrite_params (s : State) (i : Nat) (e : TlbEntry) : (s.tlbWrite i e).params = s.params := rfl
@[simp] theorem tlbWrite_inputs (s : State) (i : Nat) (e : TlbEntry) : (s.tlbWrite i e).inputs = s.inputs := rfl
@[simp] theorem tlbWrite_hz (s : State) (i : Nat) (e : TlbEntry) : (s.tlbWrite i e).hz = s.hz := rfl
@[simp] theorem tlbWrite_draws (s : State) (i : Nat) (e : TlbEntry) : (s.tlbWrite i e).draws = s.draws := rfl

@[simp] theorem tlbRead_gpr (s : State) (e : TlbEntry) : (s.tlbRead e).gpr = s.gpr := rfl
@[simp] theorem tlbRead_hi (s : State) (e : TlbEntry) : (s.tlbRead e).hi = s.hi := rfl
@[simp] theorem tlbRead_lo (s : State) (e : TlbEntry) : (s.tlbRead e).lo = s.lo := rfl
@[simp] theorem tlbRead_pc (s : State) (e : TlbEntry) : (s.tlbRead e).pc = s.pc := rfl
@[simp] theorem tlbRead_delay (s : State) (e : TlbEntry) : (s.tlbRead e).delay = s.delay := rfl
@[simp] theorem tlbRead_llbit (s : State) (e : TlbEntry) : (s.tlbRead e).llbit = s.llbit := rfl
@[simp] theorem tlbRead_tlb (s : State) (e : TlbEntry) : (s.tlbRead e).tlb = s.tlb := rfl
@[simp] theorem tlbRead_icache (s : State) (e : TlbEntry) : (s.tlbRead e).icache = s.icache := rfl
@[simp] theorem tlbRead_activeSeg (s : State) (e : TlbEntry) : (s.tlbRead e).activeSeg = s.activeSeg := rfl
@[simp] theorem tlbRead_pipe (s : State) (e : TlbEntry) : (s.tlbRead e).pipe = s.pipe := rfl
@[simp] theorem tlbRead_coldReset (s : State) (e : TlbEntry) : (s.tlbRead e).coldReset = s.coldReset := rfl
@[simp] theorem tlbRead_dDirty (s : State) (e : TlbEntry) : (s.tlbRead e).dDirty = s.dDirty := rfl
@[simp] theorem tlbRead_dMaybe (s : State) (e : TlbEntry) : (s.tlbRead e).dMaybe = s.dMaybe := rfl
@[simp] theorem tlbRead_countPhase (s : State) (e : TlbEntry) : (s.tlbRead e).countPhase = s.countPhase := rfl
@[simp] theorem tlbRead_mem (s : State) (e : TlbEntry) : (s.tlbRead e).mem = s.mem := rfl
@[simp] theorem tlbRead_cp1 (s : State) (e : TlbEntry) : (s.tlbRead e).cp1 = s.cp1 := rfl
@[simp] theorem tlbRead_params (s : State) (e : TlbEntry) : (s.tlbRead e).params = s.params := rfl
@[simp] theorem tlbRead_inputs (s : State) (e : TlbEntry) : (s.tlbRead e).inputs = s.inputs := rfl
@[simp] theorem tlbRead_recency (s : State) (e : TlbEntry) : (s.tlbRead e).recency = s.recency := rfl
@[simp] theorem tlbRead_hz (s : State) (e : TlbEntry) : (s.tlbRead e).hz = s.hz := rfl

@[simp] theorem setIcLine_gpr (s : State) (va : Word) (l : IcLine) : (s.setIcLine va l).gpr = s.gpr := rfl
@[simp] theorem setIcLine_hi (s : State) (va : Word) (l : IcLine) : (s.setIcLine va l).hi = s.hi := rfl
@[simp] theorem setIcLine_lo (s : State) (va : Word) (l : IcLine) : (s.setIcLine va l).lo = s.lo := rfl
@[simp] theorem setIcLine_pc (s : State) (va : Word) (l : IcLine) : (s.setIcLine va l).pc = s.pc := rfl
@[simp] theorem setIcLine_delay (s : State) (va : Word) (l : IcLine) : (s.setIcLine va l).delay = s.delay := rfl
@[simp] theorem setIcLine_llbit (s : State) (va : Word) (l : IcLine) : (s.setIcLine va l).llbit = s.llbit := rfl
@[simp] theorem setIcLine_cp0 (s : State) (va : Word) (l : IcLine) : (s.setIcLine va l).cp0 = s.cp0 := rfl
@[simp] theorem setIcLine_tlb (s : State) (va : Word) (l : IcLine) : (s.setIcLine va l).tlb = s.tlb := rfl
@[simp] theorem setIcLine_activeSeg (s : State) (va : Word) (l : IcLine) :
    (s.setIcLine va l).activeSeg = s.activeSeg := rfl
@[simp] theorem setIcLine_pipe (s : State) (va : Word) (l : IcLine) : (s.setIcLine va l).pipe = s.pipe := rfl
@[simp] theorem setIcLine_coldReset (s : State) (va : Word) (l : IcLine) :
    (s.setIcLine va l).coldReset = s.coldReset := rfl
@[simp] theorem setIcLine_dDirty (s : State) (va : Word) (l : IcLine) : (s.setIcLine va l).dDirty = s.dDirty := rfl
@[simp] theorem setIcLine_dMaybe (s : State) (va : Word) (l : IcLine) : (s.setIcLine va l).dMaybe = s.dMaybe := rfl
@[simp] theorem setIcLine_countPhase (s : State) (va : Word) (l : IcLine) :
    (s.setIcLine va l).countPhase = s.countPhase := rfl
@[simp] theorem setIcLine_mem (s : State) (va : Word) (l : IcLine) : (s.setIcLine va l).mem = s.mem := rfl
@[simp] theorem setIcLine_cp1 (s : State) (va : Word) (l : IcLine) : (s.setIcLine va l).cp1 = s.cp1 := rfl
@[simp] theorem setIcLine_params (s : State) (va : Word) (l : IcLine) : (s.setIcLine va l).params = s.params := rfl
@[simp] theorem setIcLine_inputs (s : State) (va : Word) (l : IcLine) : (s.setIcLine va l).inputs = s.inputs := rfl
@[simp] theorem setIcLine_recency (s : State) (va : Word) (l : IcLine) : (s.setIcLine va l).recency = s.recency := rfl
@[simp] theorem setIcLine_hz (s : State) (va : Word) (l : IcLine) : (s.setIcLine va l).hz = s.hz := rfl
@[simp] theorem setIcLine_draws (s : State) (va : Word) (l : IcLine) : (s.setIcLine va l).draws = s.draws := rfl

@[simp] theorem icFillWith_gpr (s : State) (va : Word) (pa : PAddr) (d : BitVec 256) :
    (s.icFillWith va pa d).gpr = s.gpr := rfl
@[simp] theorem icFillWith_hi (s : State) (va : Word) (pa : PAddr) (d : BitVec 256) :
    (s.icFillWith va pa d).hi = s.hi := rfl
@[simp] theorem icFillWith_lo (s : State) (va : Word) (pa : PAddr) (d : BitVec 256) :
    (s.icFillWith va pa d).lo = s.lo := rfl
@[simp] theorem icFillWith_pc (s : State) (va : Word) (pa : PAddr) (d : BitVec 256) :
    (s.icFillWith va pa d).pc = s.pc := rfl
@[simp] theorem icFillWith_delay (s : State) (va : Word) (pa : PAddr) (d : BitVec 256) :
    (s.icFillWith va pa d).delay = s.delay := rfl
@[simp] theorem icFillWith_llbit (s : State) (va : Word) (pa : PAddr) (d : BitVec 256) :
    (s.icFillWith va pa d).llbit = s.llbit := rfl
@[simp] theorem icFillWith_cp0 (s : State) (va : Word) (pa : PAddr) (d : BitVec 256) :
    (s.icFillWith va pa d).cp0 = s.cp0 := rfl
@[simp] theorem icFillWith_tlb (s : State) (va : Word) (pa : PAddr) (d : BitVec 256) :
    (s.icFillWith va pa d).tlb = s.tlb := rfl
@[simp] theorem icFillWith_activeSeg (s : State) (va : Word) (pa : PAddr) (d : BitVec 256) :
    (s.icFillWith va pa d).activeSeg = s.activeSeg := rfl
@[simp] theorem icFillWith_pipe (s : State) (va : Word) (pa : PAddr) (d : BitVec 256) :
    (s.icFillWith va pa d).pipe = s.pipe := rfl
@[simp] theorem icFillWith_coldReset (s : State) (va : Word) (pa : PAddr) (d : BitVec 256) :
    (s.icFillWith va pa d).coldReset = s.coldReset := rfl
@[simp] theorem icFillWith_dDirty (s : State) (va : Word) (pa : PAddr) (d : BitVec 256) :
    (s.icFillWith va pa d).dDirty = s.dDirty := rfl
@[simp] theorem icFillWith_dMaybe (s : State) (va : Word) (pa : PAddr) (d : BitVec 256) :
    (s.icFillWith va pa d).dMaybe = s.dMaybe := rfl
@[simp] theorem icFillWith_countPhase (s : State) (va : Word) (pa : PAddr) (d : BitVec 256) :
    (s.icFillWith va pa d).countPhase = s.countPhase := rfl
@[simp] theorem icFillWith_mem (s : State) (va : Word) (pa : PAddr) (d : BitVec 256) :
    (s.icFillWith va pa d).mem = s.mem := rfl
@[simp] theorem icFillWith_cp1 (s : State) (va : Word) (pa : PAddr) (d : BitVec 256) :
    (s.icFillWith va pa d).cp1 = s.cp1 := rfl
@[simp] theorem icFillWith_params (s : State) (va : Word) (pa : PAddr) (d : BitVec 256) :
    (s.icFillWith va pa d).params = s.params := rfl
@[simp] theorem icFillWith_inputs (s : State) (va : Word) (pa : PAddr) (d : BitVec 256) :
    (s.icFillWith va pa d).inputs = s.inputs := rfl
@[simp] theorem icFillWith_recency (s : State) (va : Word) (pa : PAddr) (d : BitVec 256) :
    (s.icFillWith va pa d).recency = s.recency := rfl
@[simp] theorem icFillWith_hz (s : State) (va : Word) (pa : PAddr) (d : BitVec 256) :
    (s.icFillWith va pa d).hz = s.hz := rfl
@[simp] theorem icFillWith_draws (s : State) (va : Word) (pa : PAddr) (d : BitVec 256) :
    (s.icFillWith va pa d).draws = s.draws := rfl

@[simp] theorem hidingLine_gpr (s t : State) (va : Word) : (s.hidingLine va t).gpr = t.gpr := rfl
@[simp] theorem hidingLine_hi (s t : State) (va : Word) : (s.hidingLine va t).hi = t.hi := rfl
@[simp] theorem hidingLine_lo (s t : State) (va : Word) : (s.hidingLine va t).lo = t.lo := rfl
@[simp] theorem hidingLine_pc (s t : State) (va : Word) : (s.hidingLine va t).pc = t.pc := rfl
@[simp] theorem hidingLine_delay (s t : State) (va : Word) : (s.hidingLine va t).delay = t.delay := rfl
@[simp] theorem hidingLine_llbit (s t : State) (va : Word) : (s.hidingLine va t).llbit = t.llbit := rfl
@[simp] theorem hidingLine_cp0 (s t : State) (va : Word) : (s.hidingLine va t).cp0 = t.cp0 := rfl
@[simp] theorem hidingLine_tlb (s t : State) (va : Word) : (s.hidingLine va t).tlb = t.tlb := rfl
@[simp] theorem hidingLine_icache (s t : State) (va : Word) : (s.hidingLine va t).icache = t.icache := rfl
@[simp] theorem hidingLine_activeSeg (s t : State) (va : Word) : (s.hidingLine va t).activeSeg = t.activeSeg := rfl
@[simp] theorem hidingLine_pipe (s t : State) (va : Word) : (s.hidingLine va t).pipe = t.pipe := rfl
@[simp] theorem hidingLine_coldReset (s t : State) (va : Word) : (s.hidingLine va t).coldReset = t.coldReset := rfl
@[simp] theorem hidingLine_dDirty (s t : State) (va : Word) : (s.hidingLine va t).dDirty = t.dDirty := rfl
@[simp] theorem hidingLine_dMaybe (s t : State) (va : Word) : (s.hidingLine va t).dMaybe = t.dMaybe := rfl
@[simp] theorem hidingLine_countPhase (s t : State) (va : Word) : (s.hidingLine va t).countPhase = t.countPhase := rfl
@[simp] theorem hidingLine_mem (s t : State) (va : Word) : (s.hidingLine va t).mem = t.mem := rfl
@[simp] theorem hidingLine_cp1 (s t : State) (va : Word) : (s.hidingLine va t).cp1 = t.cp1 := rfl
@[simp] theorem hidingLine_params (s t : State) (va : Word) : (s.hidingLine va t).params = t.params := rfl
@[simp] theorem hidingLine_inputs (s t : State) (va : Word) : (s.hidingLine va t).inputs = t.inputs := rfl
@[simp] theorem hidingLine_recency (s t : State) (va : Word) : (s.hidingLine va t).recency = t.recency := rfl
@[simp] theorem hidingLine_draws (s t : State) (va : Word) : (s.hidingLine va t).draws = t.draws := rfl

@[simp] theorem takeException_gpr (e : Exc) (s : State) : (takeException e s).gpr = s.gpr := rfl
@[simp] theorem takeException_hi (e : Exc) (s : State) : (takeException e s).hi = s.hi := rfl
@[simp] theorem takeException_lo (e : Exc) (s : State) : (takeException e s).lo = s.lo := rfl
@[simp] theorem takeException_llbit (e : Exc) (s : State) : (takeException e s).llbit = s.llbit := rfl
@[simp] theorem takeException_tlb (e : Exc) (s : State) : (takeException e s).tlb = s.tlb := rfl
@[simp] theorem takeException_icache (e : Exc) (s : State) : (takeException e s).icache = s.icache := rfl
@[simp] theorem takeException_pipe (e : Exc) (s : State) : (takeException e s).pipe = s.pipe := rfl
@[simp] theorem takeException_coldReset (e : Exc) (s : State) : (takeException e s).coldReset = s.coldReset := rfl
@[simp] theorem takeException_dDirty (e : Exc) (s : State) : (takeException e s).dDirty = s.dDirty := rfl
@[simp] theorem takeException_dMaybe (e : Exc) (s : State) : (takeException e s).dMaybe = s.dMaybe := rfl
@[simp] theorem takeException_countPhase (e : Exc) (s : State) : (takeException e s).countPhase = s.countPhase := rfl
@[simp] theorem takeException_mem (e : Exc) (s : State) : (takeException e s).mem = s.mem := rfl
@[simp] theorem takeException_cp1 (e : Exc) (s : State) : (takeException e s).cp1 = s.cp1 := rfl
@[simp] theorem takeException_params (e : Exc) (s : State) : (takeException e s).params = s.params := rfl
@[simp] theorem takeException_inputs (e : Exc) (s : State) : (takeException e s).inputs = s.inputs := rfl
@[simp] theorem takeException_recency (e : Exc) (s : State) : (takeException e s).recency = s.recency := rfl

/-- The external invalidates of a step or cycle change valid bits of the instruction cache, use up their requests, and touch
nothing else (R224, R810). -/
theorem externalInvalidates_state (s : State) : ∃ ic,
    s.externalInvalidates = { s with icache := ic, inputs := { s.inputs with inval := s.inputs.inval.tail } } ∧
    (invalidatesNow s = [] → ic = s.icache) := by
  have hfold : ∀ (l : List (Word × PAddr)) (t : State), ∃ ic,
      l.foldl (fun t (va, pa) => t.icInvalidateHit va pa) t = { t with icache := ic } := by
    intro l
    induction l with
    | nil => exact fun t => ⟨t.icache, rfl⟩
    | cons x rest ih =>
      intro t
      obtain ⟨va, pa⟩ := x
      have hx : ∃ ic, t.icInvalidateHit va pa = { t with icache := ic } := by
        unfold State.icInvalidateHit
        split
        · exact ⟨_, rfl⟩
        · exact ⟨t.icache, rfl⟩
      obtain ⟨ic, hx⟩ := hx
      obtain ⟨ic', h⟩ := ih { t with icache := ic }
      refine ⟨ic', ?_⟩
      show List.foldl _ (t.icInvalidateHit va pa) rest = _
      rw [hx]
      exact h
  obtain ⟨ic, h⟩ := hfold (invalidatesNow s) s
  refine ⟨ic, by rw [State.externalInvalidates, h], fun hn => ?_⟩
  rw [hn] at h
  exact (congrArg State.icache h).symm

@[simp] theorem tick_busMap (s : State) : (s.tick).inputs.busMap = s.inputs.busMap := rfl
@[simp] theorem tick_busWait (s : State) : (s.tick).inputs.busWait = s.inputs.busWait := rfl
@[simp] theorem tick_busTime (s : State) : (s.tick).inputs.busTime = s.inputs.busTime + 1 := rfl
@[simp] theorem tick_inval (s : State) : (s.tick).inputs.inval = s.inputs.inval := rfl
@[simp] theorem tick_gpr (s : State) : (s.tick).gpr = s.gpr := rfl
@[simp] theorem tick_hi (s : State) : (s.tick).hi = s.hi := rfl
@[simp] theorem tick_lo (s : State) : (s.tick).lo = s.lo := rfl
@[simp] theorem tick_pc (s : State) : (s.tick).pc = s.pc := rfl
@[simp] theorem tick_delay (s : State) : (s.tick).delay = s.delay := rfl
@[simp] theorem tick_llbit (s : State) : (s.tick).llbit = s.llbit := rfl
@[simp] theorem tick_tlb (s : State) : (s.tick).tlb = s.tlb := rfl
@[simp] theorem tick_icache (s : State) : (s.tick).icache = s.icache := rfl
@[simp] theorem tick_activeSeg (s : State) : (s.tick).activeSeg = s.activeSeg := rfl
@[simp] theorem tick_pipe (s : State) : (s.tick).pipe = s.pipe := rfl
@[simp] theorem tick_coldReset (s : State) : (s.tick).coldReset = s.coldReset := rfl
@[simp] theorem tick_dDirty (s : State) : (s.tick).dDirty = s.dDirty := rfl
@[simp] theorem tick_dMaybe (s : State) : (s.tick).dMaybe = s.dMaybe := rfl
@[simp] theorem tick_countPhase (s : State) : (s.tick).countPhase = s.countPhase := rfl
@[simp] theorem tick_mem (s : State) : (s.tick).mem = s.mem := rfl
@[simp] theorem tick_cp1 (s : State) : (s.tick).cp1 = s.cp1 := rfl
@[simp] theorem tick_params (s : State) : (s.tick).params = s.params := rfl
@[simp] theorem tick_recency (s : State) : (s.tick).recency = s.recency := rfl
@[simp] theorem tick_hz (s : State) : (s.tick).hz = s.hz := rfl

@[simp] theorem age_gpr (s : State) : (s.age).gpr = s.gpr := rfl
@[simp] theorem age_hi (s : State) : (s.age).hi = s.hi := rfl
@[simp] theorem age_lo (s : State) : (s.age).lo = s.lo := rfl
@[simp] theorem age_pc (s : State) : (s.age).pc = s.pc := rfl
@[simp] theorem age_delay (s : State) : (s.age).delay = s.delay := rfl
@[simp] theorem age_llbit (s : State) : (s.age).llbit = s.llbit := rfl
@[simp] theorem age_cp0 (s : State) : (s.age).cp0 = s.cp0 := rfl
@[simp] theorem age_tlb (s : State) : (s.age).tlb = s.tlb := rfl
@[simp] theorem age_icache (s : State) : (s.age).icache = s.icache := rfl
@[simp] theorem age_activeSeg (s : State) : (s.age).activeSeg = s.activeSeg := rfl
@[simp] theorem age_pipe (s : State) : (s.age).pipe = s.pipe := rfl
@[simp] theorem age_coldReset (s : State) : (s.age).coldReset = s.coldReset := rfl
@[simp] theorem age_dDirty (s : State) : (s.age).dDirty = s.dDirty := rfl
@[simp] theorem age_dMaybe (s : State) : (s.age).dMaybe = s.dMaybe := rfl
@[simp] theorem age_countPhase (s : State) : (s.age).countPhase = s.countPhase := rfl
@[simp] theorem age_mem (s : State) : (s.age).mem = s.mem := rfl
@[simp] theorem age_cp1 (s : State) : (s.age).cp1 = s.cp1 := rfl
@[simp] theorem age_params (s : State) : (s.age).params = s.params := rfl
@[simp] theorem age_inputs (s : State) : (s.age).inputs = s.inputs := rfl
@[simp] theorem age_recency (s : State) : (s.age).recency = s.recency := rfl
@[simp] theorem age_draws (s : State) : (s.age).draws = s.draws := rfl

end Sys2Proof.Machine
end

