-- ==== Sys2Proof/Laws/Ops.lean ====
section
/-! SUPPORT. What the shared operations do, said once: reading a register after a write, the rest of an instruction after
EX for a result, a HI/LO write, a branch, a CP0 write and a data access, and taking an exception. -/

namespace Sys2Proof.Machine

/-! ## Registers (R40) -/

@[simp] theorem readReg_zero (s : State) : s.readReg 0#5 = 0#64 := by simp [State.readReg]

/-- Reading back the register written: register 0 still reads 0 (R40). -/
theorem readReg_writeReg_same (s : State) (r : RegNo) (v : Word) :
    (s.writeReg r v).readReg r = if r = 0#5 then 0#64 else v := by
  unfold State.readReg State.writeReg
  split <;> simp_all

/-- A write leaves every other register alone. -/
theorem readReg_writeReg_ne (s : State) {r q : RegNo} (v : Word) (h : q ≠ r) :
    (s.writeReg r v).readReg q = s.readReg q := by
  have hne : r.toNat ≠ q.toNat := fun he => h (BitVec.eq_of_toNat_eq he.symm)
  unfold State.readReg State.writeReg
  split
  · rfl
  · split
    · rfl
    · simp only [Vector.getElem_set]
      rw [if_neg hne]

/-- A read depends on the registers alone. -/
theorem readReg_congr {s t : State} (h : t.gpr = s.gpr) (r : RegNo) : t.readReg r = s.readReg r := by
  unfold State.readReg
  rw [h]

/-! ## Writeback (R760) -/

/-- Random's move touches nothing but CP0. -/
theorem retireRandom_eq (s : State) : s.retireRandom = { s with cp0 := s.retireRandom.cp0 } := by
  unfold State.retireRandom
  split <;> rfl

/-- WB of a plain instruction: the result. -/
theorem writeBack_plain (dest : RegNo) (v : Word) (s : State) : writeBack dest v none false s = s.writeReg dest v := rfl

/-! ## The rest of an instruction after EX -/

/-- A retired instruction without a load-linked marker: the registers and CP0. -/
theorem results_writeBack (st : State) (dest : RegNo) (v : Word) (ctl : Ctl) :
    Results st ((writeBack dest v none false st).advance ctl) dest v st.hi st.lo st.llbit st.cp0 where
  dest := by
    rw [writeBack_plain, readReg_congr (s := st.writeReg dest v) (by simp)]
    exact readReg_writeReg_same st dest v
  others := fun r hr => by
    rw [writeBack_plain, readReg_congr (s := st.writeReg dest v) (by simp)]
    exact readReg_writeReg_ne st v hr
  hi := by simp
  lo := by simp
  llbit := by simp [writeBack_plain]
  cp0 := by
    rw [advance_cp0, writeBack_plain]
    simp

/-- Retirement leaves everything but registers, CP0 and the pc alone. -/
theorem sameRest_writeBack (st : State) (dest : RegNo) (v : Word) (l : Option PAddr) (e : Bool) (ctl : Ctl) :
    SameRest st ((writeBack dest v l e st).advance ctl) := by
  constructor <;> simp

/-- Retirement leaves memory alone. -/
theorem sameMemory_writeBack (st : State) (dest : RegNo) (v : Word) (l : Option PAddr) (e : Bool) (ctl : Ctl) :
    SameMemory st ((writeBack dest v l e st).advance ctl) where
  bytes := fun a => by simp
  dirty := by simp
  maybe := by simp

/-- The pc goes on in sequence. -/
theorem sequential_advance (st : State) : Sequential st (st.advance .seq) := by
  unfold State.advance
  constructor
  · unfold nextPc
    cases st.delay <;> simp
  · cases st.delay <;> rfl

/-- A state with the same pc and delay slot goes on in the same sequence. -/
theorem Sequential.of_eq {s st t : State} (h : Sequential st t) (hpc : st.pc = s.pc) (hd : st.delay = s.delay) :
    Sequential s t where
  pc := by rw [h.pc]; unfold nextPc; rw [hpc, hd]
  delay := h.delay

/-- The pc goes on in sequence after a retirement. -/
theorem sequential_writeBack (st : State) (dest : RegNo) (v : Word) (l : Option PAddr) (e : Bool) :
    Sequential st ((writeBack dest v l e st).advance .seq) :=
  (sequential_advance _).of_eq (by simp) (by simp)

/-- A branch puts its delay slot next. -/
theorem branches_writeBack (st : State) (dest : RegNo) (v : Word) (taken likely : Bool) (target : Word) :
    Branches st ((writeBack dest v none false st).advance (.branch taken likely target)) taken likely target := by
  constructor <;> simp [State.advance]

/-- The outcome of EX without a request: writeback and the advance. -/
theorem finish_ok {o : ExOut} (s : State) (h : o.request = none) :
    finish (.ok o) s = .next ((writeBack o.dest o.result none o.ctl.isEret o.st).advance o.ctl) := by
  simp [finish, h]

/-- An instruction that only produces a result (R300). -/
theorem gprOnly_resultFor (rd : RegNo) (v : Word) (s : State) :
    ∃ t, finish (resultFor rd v s) s = .next t ∧ GprOnly s t rd v :=
  ⟨_, finish_ok s rfl, results_writeBack s rd v .seq, sameRest_writeBack s rd v none false .seq,
    sameMemory_writeBack s rd v none false .seq, sequential_writeBack s rd v none false⟩

/-- A 64-bit operation in a mode that allows it (R275). -/
theorem withOps64_allowed {s : State} (k : ExResult) (h : ops64Allowed s.cp0.status = true) : withOps64 s k = k := by
  simp [withOps64, h]

/-- A CP0 instruction where CP0 is usable (R570). -/
theorem withCp0_usable {s : State} (k : ExResult) (h : cp0Usable s.cp0.status = true) : withCp0 s k = k := by
  simp [withCp0, h]

/-- A HI/LO write outside the hazard window (R400, R768). -/
theorem hiLoOnly_writeHiLo {s st : State} (hi lo : Word) (h : s.params.hiloHazard = .refuse → 2 < s.hz.hiloAge)
    (hst : st = { s with draws := st.draws }) :
    ∃ t, finish (writeHiLo hi lo st) s = .next t ∧ HiLoOnly s t hi lo := by
  rw [hst]
  have hc : ¬ (s.params.hiloHazard = .refuse ∧ s.hz.hiloAge ≤ 2) := fun hh => by have := h hh.1; omega
  let s1 : State := { s with hi := hi, lo := lo, draws := st.draws }
  refine ⟨(writeBack 0#5 0#64 none false s1).advance .seq, ?_, ?_, ?_, ?_, ?_⟩
  · simp [writeHiLo, hc, finish, Ctl.isEret, s1]
  · have := results_writeBack s1 0#5 0#64 .seq
    exact ⟨this.dest, this.others, this.hi, this.lo, this.llbit, this.cp0⟩
  · have := sameRest_writeBack s1 0#5 0#64 none false .seq
    exact ⟨this.tlb, this.recency, this.icache, this.activeSeg, this.cp1, this.pipe, this.coldReset, this.countPhase,
      this.params, this.inputs⟩
  · have := sameMemory_writeBack s1 0#5 0#64 none false .seq
    exact ⟨this.bytes, this.dirty, this.maybe⟩
  · exact (sequential_writeBack s1 0#5 0#64 none false).of_eq rfl rfl

/-- A branch or jump outside a delay slot (R440). -/
theorem branchOnly_branchOut {s : State} (taken likely : Bool) (target : Word) (link : RegNo) (h : s.delay = none) :
    ∃ t, finish (branchOut s taken likely target link) s = .next t ∧ BranchOnly s t link taken likely target := by
  refine ⟨(writeBack link (s.pc + 8#64) none false s).advance (.branch taken likely target), ?_, ?_, ?_, ?_, ?_⟩
  · simp [branchOut, h, finish, Ctl.isEret]
  · exact results_writeBack s link _ _
  · exact sameRest_writeBack s link _ none false _
  · exact sameMemory_writeBack s link _ none false _
  · exact branches_writeBack s link _ taken likely target

/-- A branch or jump in a delay slot is refused (R446). -/
theorem branchOut_slot {s : State} (taken likely : Bool) (target : Word) (link : RegNo) (h : s.delay.isSome = true) :
    finish (branchOut s taken likely target link) s = .refused .branchInDelaySlot := by
  simp [branchOut, h, finish, ExResult.refuse]

/-- An instruction whose only effect is on the CP0 registers and the model's own record. -/
theorem cp0Only_ok {s st : State} (c : Cp0) (imm : Bool)
    (hst : st = { s with cp0 := c, hz := st.hz, draws := st.draws }) :
    ∃ t, finish (.ok { st := st, immWrite := imm }) s = .next t ∧ Cp0Only s t c := by
  rw [hst]
  let s1 : State := { s with cp0 := c, hz := st.hz, draws := st.draws }
  refine ⟨(writeBack 0#5 0#64 none false s1).advance .seq, ?_, ?_, ?_, ?_, ?_⟩
  · simp [finish, Ctl.isEret, s1]
  · have := results_writeBack s1 0#5 0#64 .seq
    exact ⟨this.dest, this.others, this.hi, this.lo, this.llbit, this.cp0⟩
  · have := sameRest_writeBack s1 0#5 0#64 none false .seq
    exact ⟨this.tlb, this.recency, this.icache, this.activeSeg, this.cp1, this.pipe, this.coldReset, this.countPhase,
      this.params, this.inputs⟩
  · have := sameMemory_writeBack s1 0#5 0#64 none false .seq
    exact ⟨this.bytes, this.dirty, this.maybe⟩
  · exact (sequential_writeBack s1 0#5 0#64 none false).of_eq rfl rfl

/-! ## Data accesses -/

/-- The request of an access. -/
def requestOf (op : MemOp) (va : Word) (pa : PAddr) (cached : Bool) (data old : Word) : MemReq where
  op := op
  va := va
  pa := pa
  cached := cached
  addr := op.firstByte pa
  size := op.byteCount pa
  data := op.storeValue pa data
  old := old

/-- A rule answers the requests it covers. -/
theorem answers_iff (r : BusRange) (now : Nat) (ty : ReqType) (a n : Nat) :
    r.answers now ty a n = true ↔ r.Covers now ty a n := by
  simp only [BusRange.answers, Bool.and_eq_true, Bool.or_eq_true, List.contains_iff_mem, List.isEmpty_iff,
    decide_eq_true_eq, Option.all_eq_true]
  constructor
  · rintro ⟨⟨⟨⟨⟨h1, h2⟩, h3⟩, h4⟩, h5⟩, h6⟩
    exact ⟨h1, h2, h3, h4, h5, h6⟩
  · rintro ⟨h1, h2, h3, h4, h5, h6⟩
    exact ⟨⟨⟨⟨⟨h1, h2⟩, h3⟩, h4⟩, h5⟩, h6⟩

/-- The bus answers a request by a rule of a kind as `Touches` says. -/
theorem busMeets_iff (s : State) (ty : ReqType) (kind : BusKind) (a n : Nat) :
    busMeets s.inputs ty kind a n = true ↔ Touches s ty kind a n := by
  simp [busMeets, busRule, Touches, answers_iff]

/-- A read no device answers reads memory (R147). -/
theorem busRead_memory {s : State} {a n : Nat} (h : ¬ Touches s .read .device a n) : s.busRead a n = readBE s.mem a n := by
  have hm : ¬ busMeets s.inputs .read .device a n = true := fun hm => h ((busMeets_iff ..).mp hm)
  unfold State.busRead
  split
  · next r hr => simp [busMeets, hr] at hm
  · rfl

/-- What a device answers to a read: the data its first rule for the request gives, else a free value (R9, R241). -/
theorem busRead_device {s : State} {a n : Nat} {r : BusRange} (h : busRule s.inputs .read .device a n = some r) :
    s.busRead a n = r.answer.elim (s.deviceData n) (fun v => v % 256 ^ n) := by
  simp [State.busRead, h]

/-- A request the bus answers `error` is not answered `busy`. -/
theorem busBusyAt_error {s : State} {ty : ReqType} {a n : Nat} (h : Touches s ty .error a n) :
    busBusyAt s.inputs ty a n = none := by
  simp [busBusyAt, busErrorAt, (busMeets_iff ..).mpr h]

/-- The bus's answer to a request changes no more than the list of `busy` answers, and that only for a request no rule makes
busy (R146). -/
theorem busAnswer_state (s : State) (ty : ReqType) (a n : Nat) :
    ∃ rest, (s.busAnswer ty a n).2 = { s with inputs := { s.inputs with busWait := rest } } ∧
      ∀ m, busBusyAt s.inputs ty a n = some m → s.busAnswer ty a n = (some m, s) := by
  unfold State.busAnswer
  cases busBusyAt s.inputs ty a n with
  | some m => exact ⟨s.inputs.busWait, rfl, fun _ h => by rw [h]⟩
  | none =>
    cases hw : s.inputs.busWait with
    | nil => exact ⟨[], by simp [← hw], nofun⟩
    | cons w rest => exact ⟨rest, rfl, nofun⟩

/-- The watch check passes exactly when no watch matches or the access is CP1's (R640, R660). -/
theorem watchMatch_iff (s : State) (pa : PAddr) (store : Bool) : watchMatch s.cp0 pa store = true ↔ Watched s pa store := by
  have h (x y : Word32) : x.extractLsb' 3 29 = y.extractLsb' 3 29 ↔ x.toNat / 8 = y.toNat / 8 := by
    constructor
    · intro h
      have := congrArg BitVec.toNat h
      simp only [BitVec.extractLsb'_toNat, Nat.shiftRight_eq_div_pow] at this
      have := x.isLt
      have := y.isLt
      omega
    · intro h
      apply BitVec.eq_of_toNat_eq
      simp only [BitVec.extractLsb'_toNat, Nat.shiftRight_eq_div_pow]
      rw [show (2 : Nat) ^ 3 = 8 from rfl, h]
  simp only [watchMatch, Watched, Bool.and_eq_true, beq_iff_eq, h, and_assoc]
  cases store <;> simp

/-- The bookkeeping refuses nothing exactly when the access is allowed by it (R232, R626). -/
theorem bookRefusal_none_iff (s : State) (store cached : Bool) (va : Word) (pa : PAddr) :
    bookRefusal s store cached va pa = none ↔ Allowed s store cached va pa := by
  unfold bookRefusal
  cases cached <;> cases store <;> simp only [Bool.false_eq_true, if_false, if_true] <;> constructor
  · intro h
    exact ⟨nofun, fun _ _ hm => by simp [hm] at h, nofun⟩
  · intro h
    simp [h.clean rfl rfl]
  · intro h
    exact ⟨nofun, nofun, fun _ _ hm => by simp [hm] at h⟩
  · intro h
    simp [h.absent rfl rfl]
  · intro h
    exact ⟨fun _ => by simpa using h, nofun, nofun⟩
  · intro h
    simpa using h.alias12 rfl
  · intro h
    exact ⟨fun _ => by simpa using h, nofun, nofun⟩
  · intro h
    simpa using h.alias12 rfl

theorem Unhindered.watch {op : MemOp} {va : Word} {s : State} {pa : PAddr} {cached : Bool}
    (h : Unhindered op va s pa cached) : watchCheck s.cp0 op pa = .pass := by
  unfold watchCheck
  split
  · next hw =>
    simp only [Bool.and_eq_true, Bool.not_eq_true', watchMatch_iff] at hw
    exact absurd hw.2 (h.unwatched hw.1)
  · rfl

theorem Unhindered.book {op : MemOp} {va : Word} {s : State} {pa : PAddr} {cached : Bool}
    (h : Unhindered op va s pa cached) : bookRefusal s op.isStore cached va pa = none :=
  (bookRefusal_none_iff s _ _ _ _).mpr h.booked

theorem Unhindered.bus {op : MemOp} {va : Word} {s : State} {pa : PAddr} {cached : Bool}
    (h : Unhindered op va s pa cached) : busErrorAt s.inputs op.reqType (op.firstByte pa).toNat (op.byteCount pa) = false :=
  Bool.eq_false_iff.mpr fun he => h.answered ((busMeets_iff s _ .error _ _).mp he)

/-- A line is in the set it is added to, and only it is new (R106). -/
theorem mem_lineAdd {l : List Nat} {x y : Nat} : y ∈ lineAdd l x ↔ y = x ∨ y ∈ l := by
  induction l with
  | nil => simp [lineAdd]
  | cons a rest ih =>
    unfold lineAdd
    split
    · simp only [List.mem_cons, ih]
      constructor
      · rintro (h | h | h) <;> simp [h]
      · rintro (h | h | h) <;> simp [h]
    · split
      · next h => subst h; simp
      · simp

/-- The bookkeeping of an access (R232). -/
theorem booked_of_eq {s t : State} {store cached : Bool} {pa : PAddr} (hd : t.dDirty = (s.book store cached pa).dDirty)
    (hm : t.dMaybe = (s.book store cached pa).dMaybe) : Booked s t store cached pa := by
  constructor <;> intro l
  · rw [hd]
    unfold State.book
    cases cached <;> cases store <;> simp [mem_lineAdd, or_comm]
  · rw [hm]
    unfold State.book
    cases cached <;> simp [mem_lineAdd, or_comm]

/-- Memory after a write the bus answers (R244). -/
theorem busStored_busWrite {s t : State} {a n v : Nat} (hwf : memWfFrom 0 s.mem = true) (ht : t.mem = s.busWrite a n v) :
    BusStored s t a n v := by
  unfold State.busWrite at ht
  split at ht
  · next hw =>
    simp only [busTakesWrite, Bool.or_eq_true, busMeets_iff] at hw
    exact ⟨fun hr hd => absurd hw (not_or.mpr ⟨hr, hd⟩), fun _ x => by rw [ht]⟩
  · next hw =>
    simp only [busTakesWrite, Bool.or_eq_true, busMeets_iff] at hw
    exact ⟨fun _ _ => ⟨fun i hi => by rw [ht]; exact memRead_writeBE_inside _ _ _ hwf hi,
      fun x hx => by rw [ht]; exact memRead_writeBE_outside _ _ _ hx⟩, fun h => absurd h hw⟩

/-- EX of an access that goes through leaves its request (R502). -/
theorem memAccess_accessible {op : MemOp} {va : Word} {s : State} {pa : PAddr} {cached : Bool} (rt : RegNo)
    (data old : Word) (h : Accessible op va s pa cached) :
    memAccess op rt va data old s = .ok { st := s, dest := rt, request := some (requestOf op va pa cached data old) } := by
  obtain ⟨seg, htr⟩ := h.translated
  have hal := h.aligned
  simp only [memAccess, hal, ne_eq, not_true_eq_false, if_false, htr, h.order, h.watch, ite_self]
  rfl

/-- DC performs a request the checks have passed (R541, R761, R769). -/
theorem dcAccess_accessible {op : MemOp} {va : Word} {s : State} {pa : PAddr} {cached : Bool} (rt : RegNo)
    (data old : Word) (h : Accessible op va s pa cached) (hll : op.conditional = true → s.llbit = true) :
    dcAccess (requestOf op va pa cached data old) rt s =
      performRequest (requestOf op va pa cached data old) rt s := by
  have hin : requestInDc (requestOf op va pa cached data old) rt s =
      performRequest (requestOf op va pa cached data old) rt s := by
    simp [requestInDc, requestOf, h.book, h.bus]
  unfold dcAccess
  by_cases hc : op.conditional = true
  · have hw : watchCheck s.cp0 (requestOf op va pa cached data old).op (requestOf op va pa cached data old).pa =
        .pass := h.watch
    have hc' : (requestOf op va pa cached data old).op.conditional = true := hc
    simp only [hc', if_true, hll hc, hw, hin]
  · have hc' : (requestOf op va pa cached data old).op.conditional = false := Bool.not_eq_true _ |>.mp hc
    simp only [hc', Bool.false_eq_true, if_false, hin]

/-- The state a store leaves before its writeback. -/
def storedState (op : MemOp) (s : State) (pa : PAddr) (cached : Bool) (data : Word) : State :=
  let s' := s.book op.isStore cached pa
  { s' with
    mem := s'.busWrite (op.firstByte pa).toNat (op.byteCount pa) (op.storeValue pa data).toNat
    hz := { s'.hz with
      stores := { left := 2, addr := (op.firstByte pa).toNat, size := op.byteCount pa } :: s'.hz.stores } }

/-- A store that goes through (R530 to R537, R541). -/
theorem stores_memAccess {op : MemOp} {va : Word} {s : State} {pa : PAddr} {cached : Bool} (rt : RegNo)
    (data old : Word) (hstore : op.isStore = true) (hll : op.conditional = true → s.llbit = true)
    (hwf : memWfFrom 0 s.mem = true) (h : Accessible op va s pa cached) :
    ∃ t, finish (memAccess op rt va data old s) s = .next t ∧
      Stores op s t (if op.isCp1 then 0#5 else rt) pa cached data (boolWord op.conditional) := by
  let d : RegNo := if op.isCp1 then 0#5 else rt
  let s1 := storedState op s pa cached data
  have hlk : op.linked = false := by cases op <;> simp_all [MemOp.isStore, MemOp.linked]
  have hperf : performRequest (requestOf op va pa cached data old) rt s = .done (boolWord op.conditional) s1 := by
    simp [performRequest, requestOf, hstore, s1, storedState]
  refine ⟨(writeBack d (boolWord op.conditional) none false s1).advance .seq, ?_, ?_, ?_, ?_, ?_, ?_, ?_⟩
  · rw [memAccess_accessible _ _ _ h]
    simp only [finish, dcAccess_accessible rt data old h hll, hperf]
    simp only [requestOf, hlk, MemReq.linkPa, Ctl.isEret, Bool.false_eq_true, if_false]
    rfl
  · have := results_writeBack s1 d (boolWord op.conditional) .seq
    have hr : ∀ r, s1.readReg r = s.readReg r := fun r => readReg_congr (by simp [s1, storedState]) r
    refine ⟨this.dest, fun r hne => (this.others r hne).trans (hr r), ?_, ?_, ?_, ?_⟩ <;>
      simp [s1, storedState, writeBack_plain]
  · constructor <;> simp [s1, storedState]
  · exact busStored_busWrite hwf (by simp [s1, storedState, State.busWrite])
  · simp [s1, storedState, Hazards.retire]
  · exact booked_of_eq (by simp [s1, storedState]) (by simp [s1, storedState])
  · exact (sequential_writeBack s1 d _ none false).of_eq (by simp [s1, storedState]) (by simp [s1, storedState])

/-- A load into a general register that goes through (R510 to R524). -/
theorem loads_memAccess {op : MemOp} {va : Word} {s : State} {pa : PAddr} {cached : Bool} (rt : RegNo)
    (data old : Word) (hload : op.isStore = false) (hcp1 : op.isCp1 = false) (hlk : op.linked = false)
    (h : Accessible op va s pa cached) :
    ∃ t, finish (memAccess op rt va data old s) s = .next t ∧
      Loads op s t rt pa cached (op.loadValue pa (loadedBytes op pa s) old) := by
  let v := op.loadValue pa (loadedBytes op pa s) old
  let s1 := (s.book op.isStore cached pa).afterRead (op.firstByte pa).toNat (op.byteCount pa)
  have hcond : op.conditional = false := by cases op <;> simp_all [MemOp.isStore, MemOp.conditional]
  have hperf : performRequest (requestOf op va pa cached data old) rt s = .done v s1 := by
    cases op <;> simp_all [performRequest, requestOf, MemOp.isStore, MemOp.isCp1, v, s1, loadedBytes]
  refine ⟨(writeBack rt v none false s1).advance .seq, ?_, ?_, ?_, ?_, ?_, ?_⟩
  · rw [memAccess_accessible _ _ _ h]
    simp only [finish, dcAccess_accessible rt data old h (by simp [hcond]), hperf]
    simp [requestOf, hcp1, hlk, MemReq.linkPa, Ctl.isEret]
  · have := results_writeBack s1 rt v .seq
    have hr : ∀ r, s1.readReg r = s.readReg r := fun r => readReg_congr (by simp [s1]) r
    refine ⟨this.dest, fun r hne => (this.others r hne).trans (hr r), ?_, ?_, ?_, ?_⟩ <;>
      simp [s1, writeBack_plain]
  · constructor <;> simp [s1]
  · intro a; simp [s1]
  · exact booked_of_eq (by simp [s1]) (by simp [s1])
  · exact (sequential_writeBack s1 rt v none false).of_eq (by simp [s1]) (by simp [s1])

/-- A load linked that goes through: as a load, with LLbit set and the physical address in LLAddr (R540, R543). -/
theorem linked_memAccess {op : MemOp} {va : Word} {s : State} {pa : PAddr} {cached : Bool} (rt : RegNo)
    (data old : Word) (hlk : op.linked = true) (h : Accessible op va s pa cached) :
    ∃ t, finish (memAccess op rt va data old s) s = .next t ∧
      Results s t rt (op.loadValue pa (loadedBytes op pa s) old) s.hi s.lo true { s.cp0 with llAddr := pa >>> 4 } ∧
      SameRest s t ∧ SameBytes s t ∧ Booked s t false cached pa ∧ Sequential s t := by
  let v := op.loadValue pa (loadedBytes op pa s) old
  let s1 := (s.book op.isStore cached pa).afterRead (op.firstByte pa).toNat (op.byteCount pa)
  have hcond : op.conditional = false := by cases op <;> simp_all [MemOp.linked, MemOp.conditional]
  have hcp1 : op.isCp1 = false := by cases op <;> simp_all [MemOp.linked, MemOp.isCp1]
  have hload : op.isStore = false := by cases op <;> simp_all [MemOp.linked, MemOp.isStore]
  have hperf : performRequest (requestOf op va pa cached data old) rt s = .done v s1 := by
    cases op <;> simp_all [performRequest, requestOf, MemOp.isStore, MemOp.isCp1, v, s1, loadedBytes]
  refine ⟨(writeBack rt v (some pa) false s1).advance .seq, ?_, ?_, ?_, ?_, ?_, ?_⟩
  · rw [memAccess_accessible _ _ _ h]
    simp only [finish, dcAccess_accessible rt data old h (by simp [hcond]), hperf]
    simp [requestOf, hcp1, hlk, MemReq.linkPa, Ctl.isEret]
  · have hg : ((writeBack rt v (some pa) false s1).advance .seq).gpr = (s1.writeReg rt v).gpr := by
      simp [writeBack]
    have hr : ∀ r, s1.readReg r = s.readReg r := fun r => readReg_congr (by simp [s1]) r
    refine ⟨?_, fun r hne => ?_, ?_, ?_, ?_, ?_⟩
    · rw [readReg_congr hg]; exact readReg_writeReg_same s1 rt v
    · rw [readReg_congr hg, readReg_writeReg_ne s1 v hne, hr]
    · simp [s1]
    · simp [s1]
    · simp [writeBack]
    · simp [writeBack, s1]
  · constructor <;> simp [s1]
  · intro a; simp [s1]
  · exact booked_of_eq (by simp [s1, hload]) (by simp [s1, hload])
  · exact (sequential_writeBack s1 rt v (some pa) false).of_eq (by simp [s1]) (by simp [s1])

/-- A store conditional with LLbit clear makes no access and answers 0 (R541, R769). -/
theorem gprOnly_conditional {op : MemOp} {va : Word} {s : State} {pa : PAddr} {cached : Bool} {seg : Segment}
    (rt : RegNo) (data old : Word) (hc : op.conditional = true) (hll : s.llbit = false)
    (hal : va.toNat % op.alignment = 0) (htr : translate s.transCtx va op.kind = .ok seg pa cached)
    (hen : endianRefusal s.cp0 = none) :
    ∃ t, finish (memAccess op rt va data old s) s = .next t ∧ GprOnly s t rt 0#64 := by
  have hcp1 : op.isCp1 = false := by cases op <;> simp_all [MemOp.conditional, MemOp.isCp1]
  have hlk : op.linked = false := by cases op <;> simp_all [MemOp.conditional, MemOp.linked]
  refine ⟨_, ?_, results_writeBack s rt 0#64 .seq, sameRest_writeBack s rt 0#64 none false .seq,
    sameMemory_writeBack s rt 0#64 none false .seq, sequential_writeBack s rt 0#64 none false⟩
  simp [memAccess, hal, htr, hen, hc, finish, dcAccess, hll, hcp1, hlk, MemReq.linkPa, Ctl.isEret]

/-- The integer unit's loads and stores are the access, once 64-bit operations are allowed (R502). -/
theorem loadStore_allowed {op : MemOp} {s : State} (rt : RegNo) (offset : BitVec 16) (base : RegNo)
    (h : op.ops64 = true → ops64Allowed s.cp0.status = true) :
    loadStore op rt offset base s = memAccess op (if op.isStore && !op.conditional then 0#5 else rt)
      (effAddr s base offset) (s.readReg rt) (s.readReg rt) s := by
  unfold loadStore
  by_cases ho : op.ops64 = true
  · simp only [ho, if_true, withOps64_allowed _ (h ho)]
  · simp [ho]

/-- A load that goes through. -/
theorem loads_loadStore {op : MemOp} {s : State} {pa : PAddr} {cached : Bool} (rt : RegNo) (offset : BitVec 16)
    (base : RegNo) (hload : op.isStore = false) (hcp1 : op.isCp1 = false) (hlk : op.linked = false)
    (h : Accessible op (effAddr s base offset) s pa cached) :
    ∃ t, finish (loadStore op rt offset base s) s = .next t ∧
      Loads op s t rt pa cached (op.loadValue pa (loadedBytes op pa s) (s.readReg rt)) := by
  rw [loadStore_allowed _ _ _ h.allowed]
  simp only [hload, Bool.false_and, Bool.false_eq_true, if_false]
  exact loads_memAccess rt _ _ hload hcp1 hlk h

/-- A plain store that goes through. -/
theorem stores_loadStore {op : MemOp} {s : State} {pa : PAddr} {cached : Bool} (rt : RegNo) (offset : BitVec 16)
    (base : RegNo) (hstore : op.isStore = true) (hcp1 : op.isCp1 = false) (hc : op.conditional = false)
    (hwf : memWfFrom 0 s.mem = true) (h : Accessible op (effAddr s base offset) s pa cached) :
    ∃ t, finish (loadStore op rt offset base s) s = .next t ∧ Stores op s t 0#5 pa cached (s.readReg rt) 0#64 := by
  rw [loadStore_allowed _ _ _ h.allowed]
  have := stores_memAccess (op := op) 0#5 (s.readReg rt) (s.readReg rt) hstore (by simp [hc]) hwf h
  simpa [hstore, hc, hcp1, boolWord] using this

/-- A store conditional with LLbit set stores and answers 1 (R541). -/
theorem stores_conditional {op : MemOp} {s : State} {pa : PAddr} {cached : Bool} (rt : RegNo) (offset : BitVec 16)
    (base : RegNo) (hc : op.conditional = true) (hll : s.llbit = true)
    (hwf : memWfFrom 0 s.mem = true) (h : Accessible op (effAddr s base offset) s pa cached) :
    ∃ t, finish (loadStore op rt offset base s) s = .next t ∧ Stores op s t rt pa cached (s.readReg rt) 1#64 := by
  have hstore : op.isStore = true := by cases op <;> simp_all [MemOp.conditional, MemOp.isStore]
  have hcp1 : op.isCp1 = false := by cases op <;> simp_all [MemOp.conditional, MemOp.isCp1]
  rw [loadStore_allowed _ _ _ h.allowed]
  have := stores_memAccess (op := op) rt (s.readReg rt) (s.readReg rt) hstore (fun _ => hll) hwf h
  simpa [hstore, hc, hcp1, boolWord] using this

end Sys2Proof.Machine
end

