-- ==== Sys2Proof/Laws/Exec.lean ====
section
/-! SUPPORT. An instruction at instruction level is its EX stage and the shared rest: a proof about any instruction starts
here, and the shared operations' lemmas do the rest. -/

namespace Sys2Proof.Machine

/-- Every instruction is the EX stage of the table, then DC, WB and the advance (R3, R823). -/
theorem exec_eq_finish (i : Instr) (s : State) : exec i s = finish (exOf i s) s := by
  cases i <;> rfl

/-- What an instruction whose EX stage answers a stop does. -/
theorem finish_stop (r : Refusal) (s : State) : finish (.stop r) s = .refused r := rfl

/-- What an instruction whose EX stage raises does. -/
theorem finish_raise (e : Exc) (st s : State) : finish (.raise e st) s = .next (takeException e st) := rfl

end Sys2Proof.Machine
end

