-- ==== Sys2Proof/Laws/Invariant.lean ====
section
/-! SUPPORT. How the shared operations treat the parts of the invariant `Inv`: the reserved CP0 bits, the line sets, and the
bounds of the addresses a data access or a cache-line write touches. -/

namespace Sys2Proof.Machine

/-! ## Bits under a mask -/

/-- A masked write leaves the bits outside the mask. -/
theorem masked32_and {mask rsv : Word32} (old v : Word32) (h : mask &&& rsv = 0#32) :
    masked32 mask old v &&& rsv = old &&& rsv := by
  apply BitVec.eq_of_getLsbD_eq
  intro i hi
  have hb : (mask.getLsbD i && rsv.getLsbD i) = false := by rw [← BitVec.getLsbD_and, h]; simp
  simp only [masked32, BitVec.getLsbD_and, BitVec.getLsbD_or, BitVec.getLsbD_not, hi, decide_true, Bool.true_and]
  revert hb
  cases mask.getLsbD i <;> cases rsv.getLsbD i <;> simp

/-- A masked write leaves the bits outside the mask. -/
theorem masked64_and {mask rsv : Word} (old v : Word) (h : mask &&& rsv = 0#64) :
    masked64 mask old v &&& rsv = old &&& rsv := by
  apply BitVec.eq_of_getLsbD_eq
  intro i hi
  have hb : (mask.getLsbD i && rsv.getLsbD i) = false := by rw [← BitVec.getLsbD_and, h]; simp
  simp only [masked64, BitVec.getLsbD_and, BitVec.getLsbD_or, BitVec.getLsbD_not, hi, decide_true, Bool.true_and]
  revert hb
  cases mask.getLsbD i <;> cases rsv.getLsbD i <;> simp

/-- Clearing bits keeps a zero. -/
theorem and_and_zero {w : Nat} {x m : BitVec w} (k : BitVec w) (h : x &&& m = 0#w) : x &&& k &&& m = 0#w := by
  rw [BitVec.and_assoc, BitVec.and_comm k m, ← BitVec.and_assoc, h]
  simp

/-- Setting bits outside a mask keeps a zero under it. -/
theorem or_and_zero {w : Nat} {x y m : BitVec w} (hx : x &&& m = 0#w) (hy : y &&& m = 0#w) : (x ||| y) &&& m = 0#w := by
  rw [BitVec.and_comm, BitVec.and_or_distrib_left, BitVec.and_comm m x, BitVec.and_comm m y, hx, hy]
  simp

/-! ## The CP0 registers (R61 to R86) -/

theorem randomNext_and (c : Cp0) : randomNext c &&& 0xFFFFFFC0#32 = 0#32 := by
  unfold randomNext
  split
  · decide
  · rw [BitVec.and_assoc]
    simp

/-- A concatenation is 0 under a mask when its parts are. -/
theorem append_and_zero {w v : Nat} {x m : BitVec w} {y n : BitVec v} (h1 : x &&& m = 0#w) (h2 : y &&& n = 0#v) :
    (x ++ y) &&& (m ++ n) = 0#(w + v) := by
  rw [BitVec.and_append, h1, h2]
  simp

theorem and_zeros {w : Nat} (x : BitVec w) : x &&& 0#w = 0#w := by simp

theorem zeros_and {w : Nat} (x : BitVec w) : 0#w &&& x = 0#w := by simp

theorem causeAfter_and (c : Cp0) (e : Exc) (bd : Bool) (d : Word) : causeAfter c e bd d &&& 0x4FFF0083#32 = 0#32 :=
  append_and_zero (m := 0#1 ++ 1#1 ++ 0#2 ++ 0xFFF#12 ++ 0#8 ++ 1#1 ++ 0#5) (n := 3#2)
    (append_and_zero (append_and_zero (append_and_zero (append_and_zero (append_and_zero (append_and_zero
      (and_zeros _) (zeros_and _)) (and_zeros _)) (zeros_and _)) (and_zeros _)) (zeros_and _)) (and_zeros _)) (zeros_and _)

theorem makeEntryHi_and (r : BitVec 2) (v : BitVec 27) (a : BitVec 8) :
    makeEntryHi r v a &&& 0x3FFFFF0000001F00#64 = 0#64 :=
  append_and_zero (m := 0#2 ++ 0x3FFFFF#22 ++ 0#27 ++ 0x1F#5) (n := 0#8)
    (append_and_zero (append_and_zero (append_and_zero (and_zeros _) (zeros_and _)) (and_zeros _)) (zeros_and _))
    (and_zeros _)

theorem setBadVpn2_and (c : Word) (v : BitVec 19) : setBadVpn2 c v &&& 0xF#64 = 0#64 :=
  append_and_zero (m := 0#41 ++ 0#19) (n := 0xF#4) (append_and_zero (and_zeros _) (and_zeros _)) (zeros_and _)

theorem setXBadVpn2_and (c : Word) (r : BitVec 2) (v : BitVec 27) : setXBadVpn2 c r v &&& 0xF#64 = 0#64 :=
  append_and_zero (m := 0#31 ++ 0#2 ++ 0#27) (n := 0xF#4)
    (append_and_zero (append_and_zero (and_zeros _) (and_zeros _)) (and_zeros _)) (zeros_and _)

theorem loFromPage_and (p : TlbPage) (g : Bool) : loFromPage p g &&& 0xFFFFFFFFC0000000#64 = 0#64 :=
  append_and_zero (m := 0x3FFFFFFFF#34 ++ 0#24 ++ 0#3 ++ 0#1 ++ 0#1) (n := 0#1)
    (append_and_zero (append_and_zero (append_and_zero (append_and_zero (zeros_and _) (and_zeros _)) (and_zeros _))
      (and_zeros _)) (and_zeros _)) (and_zeros _)

/-- The tag of an instruction-cache line in the place TagLo has for it (R621). -/
theorem tagLo_and (tag : BitVec 20) (v : BitVec 1) : (0#4 ++ tag ++ v ++ 0#7 : BitVec 32) &&& 0xF000003F#32 = 0#32 :=
  append_and_zero (m := 0xF#4 ++ 0#20 ++ 0#1) (n := 0x3F#7)
    (append_and_zero (append_and_zero (zeros_and _) (and_zeros _)) (and_zeros _)) (zeros_and _)

/-- A page mask in the place PageMask has for it (R198). -/
theorem pageMask_and (m : BitVec 12) : (0#7 ++ m ++ 0#13 : BitVec 32) &&& 0xFE001FFF#32 = 0#32 :=
  append_and_zero (m := 0x7F#7 ++ 0#12) (n := 0x1FFF#13) (append_and_zero (zeros_and _) (and_zeros _)) (zeros_and _)

/-- What an exception records keeps the reserved bits. -/
theorem sound_recordExc {c : Cp0} {p : Params} (e : Exc) (d1 d2 d3 : Word) (h : c.Sound p) :
    (recordExc c e d1 d2 d3).Sound p := by
  have htlb : ∀ va, (recordTlb c va).Sound p := fun va =>
    { h with context := setBadVpn2_and _ _, xcontext := setXBadVpn2_and _ _ _, entryHi := makeEntryHi_and _ _ _ }
  have haddr : ∀ va, (recordAddr c va d1 d2 d3).Sound p := fun va =>
    { h with context := setBadVpn2_and _ _, xcontext := setXBadVpn2_and _ _ _, entryHi := makeEntryHi_and _ _ _ }
  match e with
  | .tlbModified va => exact htlb va
  | .tlbRefill _ va _ => exact htlb va
  | .tlbInvalid _ va => exact htlb va
  | .addrError _ va => exact haddr va
  | .int | .fetchBusError | .dataBusError | .syscall | .breakpoint | .reserved | .copUnusable _ | .overflow | .trap
  | .floatingPoint | .watch => exact h

theorem sound_cp0AfterExc {c : Cp0} {p : Params} (e : Exc) (pc : Word) (bd : Bool) (d0 d1 d2 d3 : Word) (h : c.Sound p) :
    (cp0AfterExc c e pc bd d0 d1 d2 d3).Sound p :=
  { sound_recordExc e d1 d2 d3 h with
    status := or_and_zero h.status (by decide)
    cause := causeAfter_and c e bd d0 }

theorem config_of_and {x y : Word32} (h : x &&& 0xF0FF7FF0#32 = y &&& 0xF0FF7FF0#32) :
    x &&& 0x80FF7FF0#32 = y &&& 0x80FF7FF0#32 ∧ x.extractLsb' 28 3 = y.extractLsb' 28 3 := by
  have hbit : ∀ i, i < 32 → (0xF0FF7FF0#32).getLsbD i = true → x.getLsbD i = y.getLsbD i := by
    intro i hi hm
    have := congrArg (fun z => z.getLsbD i) h
    simpa [hm] using this
  constructor
  · have hm : (0x80FF7FF0#32) = 0xF0FF7FF0#32 &&& 0x80FF7FF0#32 := by decide
    rw [hm, ← BitVec.and_assoc, ← BitVec.and_assoc, h]
  · apply BitVec.eq_of_getLsbD_eq
    intro i hi
    simp only [BitVec.getLsbD_extractLsb', hi, decide_true, Bool.true_and]
    have h3 : i = 0 ∨ i = 1 ∨ i = 2 := by omega
    rcases h3 with rfl | rfl | rfl <;> exact hbit _ (by omega) (by decide)

/-- A CP0 write keeps the reserved and hard-wired bits (R55). -/
theorem sound_cp0WriteRegs {c : Cp0} {p : Params} (n : RegNo) (v : Word) (h : c.Sound p) : (cp0WriteRegs n v c).Sound p := by
  unfold cp0WriteRegs
  split
  · exact { h with index := (masked32_and _ _ (by decide)).trans h.index }
  · exact { h with entryLo0 := (masked64_and _ _ (by decide)).trans h.entryLo0 }
  · exact { h with entryLo1 := (masked64_and _ _ (by decide)).trans h.entryLo1 }
  · exact { h with context := (masked64_and _ _ (by decide)).trans h.context }
  · exact { h with pageMask := (masked32_and _ _ (by decide)).trans h.pageMask }
  · exact { h with wired := (masked32_and _ _ (by decide)).trans h.wired, random := (by decide : (31#32) &&& 0xFFFFFFC0#32 = 0#32) }
  · exact { h with }
  · exact { h with entryHi := (masked64_and _ _ (by decide)).trans h.entryHi }
  · exact { h with cause := and_and_zero _ h.cause }
  · exact { h with status := (masked32_and _ _ (by decide)).trans h.status }
  · exact { h with cause := (masked32_and _ _ (by decide)).trans h.cause }
  · exact { h with }
  · have hc := config_of_and (x := masked32 0x0F00800F#32 c.config (lo32 v)) (y := c.config)
      (masked32_and _ _ (by decide))
    exact { h with config := hc.1.trans h.config, configEc := hc.2.trans h.configEc }
  · exact { h with }
  · exact { h with watchLo := (masked32_and _ _ (by decide)).trans h.watchLo }
  · exact { h with watchHi := (masked32_and _ _ (by decide)).trans h.watchHi }
  · exact { h with xcontext := (masked64_and _ _ (by decide)).trans h.xcontext }
  · exact { h with parityError := (masked32_and _ _ (by decide)).trans h.parityError }
  · exact { h with tagLo := (masked32_and _ _ (by decide)).trans h.tagLo }
  · exact { h with }
  · exact { h with }
  · exact h

theorem sound_eret {c : Cp0} {p : Params} (h : c.Sound p) : ({ c with status := eretStatus c.status } : Cp0).Sound p := by
  have : eretStatus c.status &&& 0x00A80000#32 = 0#32 := by
    unfold eretStatus
    split <;> exact and_and_zero _ h.status
  exact { h with status := this }

theorem setLines_and (l : BitVec 5) {x : Word32} (h : x &&& 0x4FFF0083#32 = 0#32) :
    setLines l x &&& 0x4FFF0083#32 = 0#32 := by
  unfold setLines
  apply or_and_zero (and_and_zero _ h)
  have : ∀ l : BitVec 5, (l.setWidth 32 <<< 10) &&& 0x4FFF0083#32 = 0#32 := by decide
  exact this l

/-- Random has 6 bits (R62), whatever the policy between two instructions. -/
theorem randomNow_and {s : State} (h : s.cp0.random &&& 0xFFFFFFC0#32 = 0#32) : randomNow s &&& 0xFFFFFFC0#32 = 0#32 := by
  have hw : ∀ v : BitVec 6, v.setWidth 32 &&& 0xFFFFFFC0#32 = 0#32 := by decide
  unfold randomNow
  split
  · exact hw _
  · exact h

/-- The timer and the interrupt lines keep the reserved bits. -/
theorem sound_tick {c : Cp0} {p : Params} (n : Nat) (l : BitVec 5) {r : Word32} (h : c.Sound p)
    (hr : r &&& 0xFFFFFFC0#32 = 0#32) :
    ({ countAdvance n c with cause := setLines l (countAdvance n c).cause, random := r } : Cp0).Sound p := by
  have hc : (countAdvance n c).cause &&& 0x4FFF0083#32 = 0#32 := by
    unfold countAdvance
    dsimp only
    split
    · exact or_and_zero h.cause (by decide)
    · exact h.cause
  exact { h with cause := setLines_and l hc, random := hr }

/-! ## Sets of lines (R106, R232) -/

theorem linesWfFrom_weaken {l : List Nat} {p q : Nat} (hpq : q ≤ p) (h : linesWfFrom p l = true) :
    linesWfFrom q l = true := by
  cases l with
  | nil => rfl
  | cons a rest =>
    simp only [linesWfFrom, Bool.and_eq_true, decide_eq_true_eq] at h ⊢
    exact ⟨⟨by omega, h.1.2⟩, h.2⟩

/-- Adding an aligned line keeps the form. -/
theorem linesWfFrom_lineAdd {l : List Nat} {lo x : Nat} (h : linesWfFrom lo l = true) (hx : lo ≤ x) (hal : x % 16 = 0) :
    linesWfFrom lo (lineAdd l x) = true := by
  induction l generalizing lo with
  | nil => simp [lineAdd, linesWfFrom, hx, hal]
  | cons a rest ih =>
    simp only [linesWfFrom, Bool.and_eq_true, decide_eq_true_eq] at h
    unfold lineAdd
    split
    · simp only [linesWfFrom, Bool.and_eq_true, decide_eq_true_eq]
      exact ⟨h.1, ih h.2 (by omega)⟩
    · split
      · simp only [linesWfFrom, Bool.and_eq_true, decide_eq_true_eq]
        exact h
      · simp only [linesWfFrom, Bool.and_eq_true, decide_eq_true_eq]
        exact ⟨⟨hx, hal⟩, ⟨by omega, h.1.2⟩, h.2⟩

/-- Removing lines keeps the form. -/
theorem linesWfFrom_filter {l : List Nat} {lo : Nat} (f : Nat → Bool) (h : linesWfFrom lo l = true) :
    linesWfFrom lo (l.filter f) = true := by
  induction l generalizing lo with
  | nil => rfl
  | cons a rest ih =>
    simp only [linesWfFrom, Bool.and_eq_true, decide_eq_true_eq] at h
    simp only [List.filter]
    split
    · simp only [linesWfFrom, Bool.and_eq_true, decide_eq_true_eq]
      exact ⟨h.1, ih h.2⟩
    · exact linesWfFrom_weaken (by omega) (ih h.2)

/-! ## Addresses -/

/-- A segment's offset keeps the low twelve bits of an address. -/
theorem segments_offset {g : Segment} (h : g ∈ segments) : g.offset.toNat % 4096 = 0 := by
  have hall : ∀ g ∈ segments, g.offset.toNat % 4096 = 0 := by decide
  exact hall g h

theorem pageBits_ge (mask : BitVec 12) : 12 ≤ pageBits mask := by unfold pageBits; omega

theorem pageBits_le (mask : BitVec 12) : pageBits mask ≤ 24 := by
  unfold pageBits
  have := List.length_filter_le (fun i => mask.getLsbD i) (List.range 12)
  simp only [List.length_range] at this
  omega

/-- A frame address keeps the low twelve bits of the address (R190). -/
theorem framePa_low (mask : BitVec 12) (pfn : BitVec 24) (va : Word) : (framePa mask pfn va).toNat % 4096 = va.toNat % 4096 := by
  obtain ⟨k, hk⟩ : ∃ k, pageBits mask = 12 + k := ⟨pageBits mask - 12, by have := pageBits_ge mask; omega⟩
  unfold framePa
  simp only [BitVec.toNat_ofNat, hk, Nat.pow_add]
  generalize pfn.toNat * 4096 / (2 ^ 12 * 2 ^ k) = q
  have h1 : (2:Nat) ^ 32 = 4096 * 1048576 := by decide
  rw [h1, Nat.mod_mul_right_mod]
  have h2 : q * (2 ^ 12 * 2 ^ k) = 4096 * (q * 2 ^ k) := by
    rw [show (2:Nat) ^ 12 = 4096 from rfl, ← Nat.mul_assoc, Nat.mul_comm q 4096, Nat.mul_assoc]
  rw [h2, Nat.mul_add_mod, show (2:Nat) ^ 12 = 4096 from rfl, Nat.mod_mul_right_mod]

/-- A translation keeps the low twelve bits of the address (R170). -/
theorem translate_low {c : TransCtx} {va : Word} {k : AccessKind} {seg : Segment} {pa : PAddr} {cached : Bool}
    (h : translate c va k = .ok seg pa cached) : pa.toNat % 4096 = va.toNat % 4096 := by
  unfold translate at h
  split at h
  · cases h
  · split at h
    · cases h
    · split at h
      · cases h
      · next g hg =>
        split at h
        · unfold translateMapped at h
          split at h
          · cases h
          · cases h
          · split at h
            · unfold translateEntry at h
              split at h
              · cases h
              · dsimp only at h
                split at h
                · cases h
                · split at h
                  · cases h
                  · split at h
                    · cases h
                    · cases h
                      exact framePa_low _ _ _
            · cases h
        · cases h
          have hoff := segments_offset (List.mem_of_find?_eq_some hg)
          simp only [lo32, BitVec.toNat_setWidth, BitVec.toNat_sub]
          have := va.isLt
          omega

/-- An aligned access lies inside the physical space. -/
theorem access_bound {op : MemOp} {va : Word} {pa : PAddr} (hal : va.toNat % op.alignment = 0)
    (hlow : pa.toNat % 4096 = va.toNat % 4096) : (op.firstByte pa).toNat + op.byteCount pa ≤ 2 ^ 32 := by
  have hlt := pa.isLt
  have h4 : (pa &&& ~~~3#32).toNat = pa.toNat / 4 * 4 := by
    have : pa &&& ~~~3#32 = pa >>> 2 <<< 2 := by
      apply BitVec.eq_of_getLsbD_eq
      intro i hi
      simp only [BitVec.getLsbD_and, BitVec.getLsbD_not, hi, decide_true, Bool.true_and, BitVec.getLsbD_shiftLeft,
        BitVec.getLsbD_ushiftRight]
      have hm : (3#32).getLsbD i = decide (i < 2) := by
        have : ∀ i : Fin 32, (3#32).getLsbD i.val = decide (i.val < 2) := by decide
        exact this ⟨i, hi⟩
      rw [hm]
      by_cases h : i < 2
      · simp [h]
      · simp [h, show 2 + (i - 2) = i by omega]
    rw [this]
    simp only [BitVec.toNat_shiftLeft, BitVec.toNat_ushiftRight, Nat.shiftRight_eq_div_pow, Nat.shiftLeft_eq]
    omega
  have h8 : (pa &&& ~~~7#32).toNat = pa.toNat / 8 * 8 := by
    have : pa &&& ~~~7#32 = pa >>> 3 <<< 3 := by
      apply BitVec.eq_of_getLsbD_eq
      intro i hi
      simp only [BitVec.getLsbD_and, BitVec.getLsbD_not, hi, decide_true, Bool.true_and, BitVec.getLsbD_shiftLeft,
        BitVec.getLsbD_ushiftRight]
      have hm : (7#32).getLsbD i = decide (i < 3) := by
        have : ∀ i : Fin 32, (7#32).getLsbD i.val = decide (i.val < 3) := by decide
        exact this ⟨i, hi⟩
      rw [hm]
      by_cases h : i < 3
      · simp [h]
      · simp [h, show 3 + (i - 3) = i by omega]
    rw [this]
    simp only [BitVec.toNat_shiftLeft, BitVec.toNat_ushiftRight, Nat.shiftRight_eq_div_pow, Nat.shiftLeft_eq]
    omega
  cases op <;> simp only [MemOp.firstByte, MemOp.byteCount, MemOp.alignment, h4, h8] at hal ⊢ <;> omega

/-- A cache line lies inside the physical space. -/
theorem lineBase_bound (pa : PAddr) : lineBase pa + 32 ≤ 2 ^ 32 := by
  have := pa.isLt
  unfold lineBase
  omega

theorem line16_aligned (pa : PAddr) : line16 pa % 16 = 0 := by unfold line16; omega

/-! ## The invariant through the shared operations -/

/-- The invariant looks at memory, register 0, CP0 with the parameters, the two line sets and the HI/LO window only. -/
theorem Inv.of_eq {s t : State} (h : Inv s) (hm : t.mem = s.mem) (hg : t.gpr = s.gpr) (hc : t.cp0 = s.cp0)
    (hp : t.params = s.params) (hd : t.dDirty = s.dDirty) (hb : t.dMaybe = s.dMaybe)
    (ha : t.hz.hiloAge = s.hz.hiloAge) : Inv t where
  memory := by rw [hm]; exact h.memory
  reg0 := by simp only [hg]; exact h.reg0
  cp0 := by rw [hc, hp]; exact h.cp0
  dirty := by rw [hd]; exact h.dirty
  maybe := by rw [hb]; exact h.maybe
  dirtyMaybe := by rw [hd, hb]; exact h.dirtyMaybe
  hiloAge := by rw [ha]; exact h.hiloAge

/-- New CP0 registers with the reserved bits as they should be. -/
theorem Inv.withCp0Regs {s : State} (h : Inv s) {c : Cp0} (hc : c.Sound s.params) : Inv { s with cp0 := c } :=
  { h with cp0 := hc }

theorem inv_writeReg {s : State} (r : RegNo) (v : Word) (h : Inv s) : Inv (s.writeReg r v) where
  memory := by rw [writeReg_mem]; exact h.memory
  reg0 := by
    unfold State.writeReg
    split
    · exact h.reg0
    · next hr =>
      have hne : r.toNat ≠ 0 := fun he => hr (BitVec.eq_of_toNat_eq he)
      simp only [Vector.getElem_set]
      rw [if_neg hne]
      exact h.reg0
  cp0 := by rw [writeReg_cp0, writeReg_params]; exact h.cp0
  dirty := by rw [writeReg_dDirty]; exact h.dirty
  maybe := by rw [writeReg_dMaybe]; exact h.maybe
  dirtyMaybe := by rw [writeReg_dDirty, writeReg_dMaybe]; exact h.dirtyMaybe
  hiloAge := by rw [writeReg_hz]; exact h.hiloAge

theorem inv_retireRandom {s : State} (h : Inv s) : Inv s.retireRandom := by
  unfold State.retireRandom
  split
  · exact h.withCp0Regs { h.cp0 with random := randomNext_and s.cp0 }
  · exact h

theorem inv_writeBack {s : State} (dest : RegNo) (v : Word) (l : Option PAddr) (e : Bool) (h : Inv s) :
    Inv (writeBack dest v l e s) := by
  have h1 := inv_writeReg dest v h
  unfold writeBack
  cases l with
  | none => cases e with
    | false => exact h1
    | true => exact { h1 with }
  | some pa => cases e with
    | false => exact { h1 with cp0 := { h1.cp0 with } }
    | true => exact { h1 with cp0 := { h1.cp0 with } }

theorem inv_advance {s : State} (c : Ctl) (h : Inv s) : Inv (s.advance c) where
  memory := by rw [advance_mem]; exact h.memory
  reg0 := by simp only [advance_gpr]; exact h.reg0
  cp0 := by rw [advance_cp0, advance_params]; exact h.cp0
  dirty := by rw [advance_dDirty]; exact h.dirty
  maybe := by rw [advance_dMaybe]; exact h.maybe
  dirtyMaybe := by rw [advance_dDirty, advance_dMaybe]; exact h.dirtyMaybe
  hiloAge := by rw [advance_hz]; exact Nat.min_le_left _ _

/-- A write on the bus keeps the canonical form (R244). -/
theorem wf_busWrite {s : State} {a n : Nat} (v : Nat) (h : Memory.wf s.mem = true) (ha : a + n ≤ 2 ^ 32) :
    Memory.wf (s.busWrite a n v) = true := by
  unfold State.busWrite
  split
  · exact h
  · exact wf_writeBE n v h ha

theorem inv_takeException {s : State} (e : Exc) (h : Inv s) : Inv (takeException e s) :=
  { h with cp0 := sound_cp0AfterExc e _ _ _ _ _ _ h.cp0 }

theorem inv_book {s : State} (store cached : Bool) (pa : PAddr) (h : Inv s) : Inv (s.book store cached pa) := by
  unfold State.book
  split
  · have hm : linesWfFrom 0 (lineAdd s.dMaybe (line16 pa)) = true :=
      linesWfFrom_lineAdd h.maybe (Nat.zero_le _) (line16_aligned pa)
    cases store with
    | false => exact { h with maybe := hm, dirtyMaybe := fun l hl => mem_lineAdd.mpr (.inr (h.dirtyMaybe l hl)) }
    | true =>
      exact { h with
        maybe := hm
        dirty := linesWfFrom_lineAdd h.dirty (Nat.zero_le _) (line16_aligned pa)
        dirtyMaybe := fun l hl => mem_lineAdd.mpr ((mem_lineAdd.mp hl).imp_right (h.dirtyMaybe l)) }
  · exact h

/-- A request inside the physical space. -/
def MemReq.Bounded (rq : MemReq) : Prop := rq.addr.toNat + rq.size ≤ 2 ^ 32

theorem inv_performRequest {rq : MemReq} {rt : RegNo} {s t : State} {v : Word} (hb : rq.Bounded) (h : Inv s)
    (hd : performRequest rq rt s = .done v t) : Inv t := by
  have h1 := fun st => inv_book st rq.cached rq.pa h
  unfold performRequest at hd
  dsimp only at hd
  split at hd
  · cases hd
    exact { h1 true with memory := wf_busWrite _ (h1 true).memory hb }
  · split at hd
    · cases hd; exact { h1 false with }
    · cases hd; exact { h1 false with }
    · cases hd; exact { h1 false with }

theorem inv_requestInDc {rq : MemReq} {rt : RegNo} {s t : State} {v : Word} (hb : rq.Bounded) (h : Inv s)
    (hd : requestInDc rq rt s = .done v t) : Inv t := by
  unfold requestInDc at hd
  split at hd
  · cases hd
  · split at hd
    · cases hd
    · exact inv_performRequest hb h hd

theorem inv_dcAccess {rq : MemReq} {rt : RegNo} {s t : State} {v : Word} (hb : rq.Bounded) (h : Inv s)
    (hd : dcAccess rq rt s = .done v t) : Inv t := by
  unfold dcAccess at hd
  split at hd
  · split at hd
    · split at hd
      · exact inv_requestInDc hb h hd
      · cases hd
      · cases hd
    · cases hd; exact h
  · exact inv_requestInDc hb h hd

/-- What an instruction's EX stage leaves keeps the invariant, and its request lies inside the physical space. -/
def ExResult.Keeps : ExResult → Prop
  | .stop _ => True
  | .raise _ st => Inv st
  | .ok o => Inv o.st ∧ ∀ rq, o.request = some rq → rq.Bounded

/-- The rest of an instruction keeps the invariant when its EX stage does. -/
theorem inv_finish {r : ExResult} {s t : State} (hs : Inv s) (hr : r.Keeps) (h : finish r s = .next t) : Inv t := by
  unfold finish at h
  split at h
  · cases h
  · cases h; exact inv_takeException _ hr
  · next o =>
    split at h
    · cases h; exact inv_advance _ (inv_writeBack _ _ _ _ hr.1)
    · next rq hrq =>
      split at h
      · cases h
      · cases h; exact inv_takeException _ hs
      · next v st hdc =>
        cases h
        exact inv_advance _ (inv_writeBack _ _ _ _ (inv_dcAccess (hr.2 rq hrq) hr.1 hdc))

theorem keeps_ok {o : ExOut} (h : Inv o.st) (hr : o.request = none) : (ExResult.ok o).Keeps :=
  ⟨h, fun rq hrq => by rw [hr] at hrq; cases hrq⟩

theorem keeps_resultFor {s : State} (rd : RegNo) (v : Word) (h : Inv s) : (resultFor rd v s).Keeps :=
  ⟨h, fun _ hrq => by cases hrq⟩

theorem keeps_withOps64 {s : State} {k : ExResult} (h : Inv s) (hk : k.Keeps) : (withOps64 s k).Keeps := by
  unfold withOps64
  split
  · exact hk
  · exact h

theorem keeps_withCp0 {s : State} {k : ExResult} (h : Inv s) (hk : k.Keeps) : (withCp0 s k).Keeps := by
  unfold withCp0
  split
  · exact hk
  · exact h

theorem keeps_branchOut {s : State} (taken likely : Bool) (target : Word) (link : RegNo) (h : Inv s) :
    (branchOut s taken likely target link).Keeps := by
  unfold branchOut
  split
  · trivial
  · exact ⟨h, fun _ hrq => by cases hrq⟩

theorem keeps_eretOut {s : State} (h : Inv s) : (eretOut s).Keeps := by
  unfold eretOut
  split
  · trivial
  · exact ⟨{ h with cp0 := sound_eret h.cp0 }, fun _ hrq => by cases hrq⟩

theorem keeps_writeHiLo {s : State} (hi lo : Word) (h : Inv s) : (writeHiLo hi lo s).Keeps := by
  unfold writeHiLo
  split
  · trivial
  · exact ⟨{ h with }, fun _ hrq => by cases hrq⟩

theorem keeps_memAccess {s : State} (op : MemOp) (rt : RegNo) (va data old : Word) (h : Inv s) :
    (memAccess op rt va data old s).Keeps := by
  unfold memAccess
  split
  · exact h
  · next hal =>
    have hal : va.toNat % op.alignment = 0 := Decidable.not_not.mp hal
    split
    · trivial
    · exact h
    · next seg pa cached htr =>
      have hb := access_bound hal (translate_low htr)
      split
      · trivial
      · have hk : ∀ rq, some (requestOf op va pa cached data old) = some rq → rq.Bounded := by
          intro rq hrq
          cases hrq
          exact hb
        dsimp only
        split
        · exact ⟨h, hk⟩
        · split
          · exact ⟨h, hk⟩
          · exact h
          · trivial

theorem inv_externalInvalidates {s : State} (h : Inv s) : Inv s.externalInvalidates := by
  have hfold : ∀ (l : List (Word × PAddr)) (t : State), Inv t →
      Inv (l.foldl (fun t (va, pa) => t.icInvalidateHit va pa) t) := by
    intro l
    induction l with
    | nil => exact fun _ ht => ht
    | cons x rest ih =>
      intro t ht
      apply ih
      show Inv (t.icInvalidateHit x.1 x.2)
      unfold State.icInvalidateHit
      split
      · exact { ht with }
      · exact ht
  exact { hfold (invalidatesNow s) s h with }

theorem inv_beginStep {s : State} (h : Inv s) : Inv (beginStep s) := by
  have h1 := inv_externalInvalidates h
  exact { h1 with cp0 := sound_tick _ _ h1.cp0 (randomNow_and h1.cp0.random) }

theorem inv_age {s : State} (h : Inv s) : Inv s.age := { h with }

theorem inv_fetch {s t : State} {w : Word32} (h : Inv s) (hf : fetch s = .word w t) : Inv t := by
  unfold fetch at hf
  dsimp only at hf
  split at hf
  · cases hf
  · split at hf
    · cases hf
    · split at hf <;> cases hf
    · split at hf
      · cases hf
      · split at hf
        · unfold fetchCached at hf
          split at hf
          · cases hf; exact { h with }
          · split at hf
            · cases hf
            · split at hf
              · cases hf
              · cases hf; exact { h with }
        · unfold fetchUncached at hf
          split at hf
          · cases hf
          · split at hf
            · cases hf
            · cases hf; exact { h with }

theorem inv_resetHandler {s : State} (h : Inv s) : Inv (resetHandler s) := by
  have hst : ((s.cp0.status &&& ~~~0x08300000#32) ||| 0x00400004#32) &&& 0x00A80000#32 = 0#32 :=
    or_and_zero (and_and_zero _ h.cp0.status) (by decide)
  have hcfg : ∀ ec : BitVec 3,
      ((ec.setWidth 32 <<< 28) ||| 0x0006E460#32) &&& 0x80FF7FF0#32 = 0x00066460#32 ∧
      ((ec.setWidth 32 <<< 28) ||| 0x0006E460#32).extractLsb' 28 3 = ec := by decide
  have hold : s.cp0.config &&& ~~~0xFFFF7FF0#32 &&& 0xF0FF7FF0#32 = 0#32 := by
    rw [BitVec.and_assoc]
    have : (~~~0xFFFF7FF0#32) &&& 0xF0FF7FF0#32 = 0#32 := by decide
    rw [this]
    simp
  have hsame : ((s.cp0.config &&& ~~~0xFFFF7FF0#32) ||| (s.params.configEc.setWidth 32 <<< 28) ||| 0x0006E460#32) &&&
      0xF0FF7FF0#32 = ((s.params.configEc.setWidth 32 <<< 28) ||| 0x0006E460#32) &&& 0xF0FF7FF0#32 := by
    rw [BitVec.or_assoc, BitVec.and_comm, BitVec.and_or_distrib_left, BitVec.and_comm _ (s.cp0.config &&& _), hold,
      BitVec.and_comm _ (_ ||| _)]
    simp
  have hc := config_of_and hsame
  exact { h with
    cp0 := { h.cp0 with
      status := hst
      config := hc.1.trans (hcfg s.params.configEc).1
      configEc := hc.2.trans (hcfg s.params.configEc).2
      random := (by decide : (31#32) &&& 0xFFFFFFC0#32 = 0#32)
      wired := (by decide : (0#32) &&& 0xFFFFFFC0#32 = 0#32) }
    dirty := rfl
    maybe := rfl
    dirtyMaybe := fun _ hl => by cases hl
    hiloAge := Nat.le_refl 3 }

end Sys2Proof.Machine
end

