-- ==== Sys2Proof/Laws/Tlb.lean ====
section
/-! SUPPORT. What a lookup in the TLB answers: the matching indices, and the index a policy picks among them. -/

namespace Sys2Proof.Machine

/-- The matching indices are those of the entries that match (R190). -/
theorem mem_tlbMatches {tlb : Vector TlbEntry 32} {vpn2 : BitVec 27} {r : BitVec 2} {asid : BitVec 8} {i : Nat} :
    i ∈ tlbMatches tlb vpn2 r asid ↔ ∃ h : i < 32, (tlb[i]).matchesPage vpn2 r asid = true := by
  simp only [tlbMatches, List.mem_map, List.mem_filter, Prod.exists, List.mem_zipIdx_iff_getElem?]
  constructor
  · rintro ⟨e, j, ⟨he, hm⟩, rfl⟩
    obtain ⟨h, rfl⟩ := List.getElem?_eq_some_iff.mp he
    have h' : j < 32 := by simpa using h
    exact ⟨h', by simpa using hm⟩
  · rintro ⟨h, hm⟩
    exact ⟨tlb[i], i, ⟨List.getElem?_eq_some_iff.mpr ⟨by simpa using h, by simp⟩, hm⟩, rfl⟩

/-- The index picked is one of those that match (R193). -/
theorem tlbPick_mem {policy : MultiMatch} {recency found : List Nat} {i : Nat} (h : tlbPick policy recency found = .hit i) :
    i ∈ found := by
  unfold tlbPick at h
  split at h
  · cases h
  · cases h
    exact List.mem_singleton_self _
  · next j more _ =>
    split at h
    · cases h
    · cases h
      exact List.mem_cons_self
    · cases h
      cases hf : recency.find? (fun k => (j :: more).contains k) with
      | none => exact List.mem_cons_self
      | some k => simpa using List.find?_some hf

/-- Exactly one match is picked under every policy (R193). -/
theorem tlbPick_single (policy : MultiMatch) (recency : List Nat) (i : Nat) : tlbPick policy recency [i] = .hit i := rfl

/-- No match is a miss under every policy. -/
theorem tlbPick_nil (policy : MultiMatch) (recency : List Nat) : tlbPick policy recency [] = .miss := rfl

end Sys2Proof.Machine
end

