-- ==== Sys2Proof/Laws/Values.lean ====
section
/-! SUPPORT. What the operand forms and the tests of Flags.lean are as integers, so that a statement about a result is
proved without unfolding a sign extension. -/

namespace Sys2Proof.Machine

/-- A sign-extended immediate is its integer value, as a doubleword. -/
theorem sextImm_eq_ofInt (imm : BitVec 16) : sextImm imm = BitVec.ofInt 64 imm.toInt := by
  simp [sextImm, BitVec.signExtend]

/-- A sign-extended immediate as an integer. -/
theorem sextImm_toInt (imm : BitVec 16) : (sextImm imm).toInt = imm.toInt := by
  simp only [sextImm]
  rw [BitVec.toInt_signExtend_of_le (by decide)]

/-- A zero-extended immediate is its natural value, as a doubleword. -/
theorem zextImm_eq_ofNat (imm : BitVec 16) : zextImm imm = BitVec.ofNat 64 imm.toNat := by
  apply BitVec.eq_of_toNat_eq
  have := imm.isLt
  simp only [zextImm, BitVec.toNat_setWidth, BitVec.toNat_ofNat]

/-- A sign-extended word is as an integer its low word. -/
theorem lo32_toInt {v : Word} (h : sx32 v = true) : (lo32 v).toInt = v.toInt := by
  simp only [sx32, beq_iff_eq, sext64] at h
  have := congrArg BitVec.toInt h
  rw [BitVec.toInt_signExtend_of_le (by decide)] at this
  exact this.symm

/-- A sign extension is the doubleword of its integer value. -/
theorem sext64_eq_ofInt (v : Word32) : sext64 v = BitVec.ofInt 64 v.toInt := by
  simp [sext64, BitVec.signExtend]

/-- The low word of a sign-extended immediate. -/
theorem lo32_sextImm (imm : BitVec 16) : lo32 (sextImm imm) = imm.signExtend 32 := by
  ext i hi
  simp only [lo32, sextImm, BitVec.getElem_setWidth, BitVec.getLsbD_signExtend, BitVec.getElem_signExtend]
  have : i < 64 := by omega
  by_cases h : i < 16 <;> simp [h, this]

/-- A sign-extended immediate is a sign-extended word (R302). -/
theorem sx32_sextImm (imm : BitVec 16) : sx32 (sextImm imm) = true := by
  simp only [sx32, beq_iff_eq, lo32_sextImm, sextImm, sext64]
  apply BitVec.eq_of_toInt_eq
  rw [BitVec.toInt_signExtend_of_le (by decide), BitVec.toInt_signExtend_of_le (by decide),
    BitVec.toInt_signExtend_of_le (by decide)]

/-- The word overflow test (R304). -/
theorem fits32_iff (t : Int) : fits32 t = true ↔ (-(2 ^ 31) ≤ t ∧ t < 2 ^ 31) := by
  simp only [fits32, decide_eq_true_eq]
  omega

/-- The doubleword overflow test (R304). -/
theorem fits64_iff (t : Int) : fits64 t = true ↔ (-(2 ^ 63) ≤ t ∧ t < 2 ^ 63) := by
  simp only [fits64, decide_eq_true_eq]
  omega

/-- A word result that fits is the exact integer. -/
theorem sext64_ofInt {t : Int} (h : fits32 t = true) : sext64 (BitVec.ofInt 32 t) = BitVec.ofInt 64 t := by
  have h := (fits32_iff t).mp h
  apply BitVec.eq_of_toInt_eq
  simp only [sext64]
  rw [BitVec.toInt_signExtend_of_le (by decide), BitVec.toInt_ofInt, BitVec.toInt_ofInt]
  rw [Int.bmod_eq_of_le (by omega) (by omega), Int.bmod_eq_of_le (by omega) (by omega)]

/-- The value LUI loads, as an integer (R347). -/
theorem luiValue_eq_ofInt (imm : BitVec 16) : luiValue imm = BitVec.ofInt 64 (imm.toInt * 65536) := by
  rw [luiValue, sext64_eq_ofInt]
  congr 1
  rw [BitVec.toInt_eq_toNat_cond, BitVec.toInt_eq_toNat_cond]
  simp only [BitVec.toNat_append, BitVec.toNat_ofNat]
  have h1 : imm.toNat <<< 16 ||| 0 % 2 ^ 16 = imm.toNat * 65536 := by simp [Nat.shiftLeft_eq]
  rw [h1]
  have := imm.isLt
  split <;> split <;> omega

/-- The signed comparisons with zero (R462, R470). -/
theorem isNeg_eq (v : Word) : isNeg v = decide (v.toInt < 0) := by
  simp [isNeg, BitVec.slt]

theorem isLez_eq (v : Word) : isLez v = decide (v.toInt ≤ 0) := by
  simp [isLez, BitVec.sle]

/-- The target of a PC-relative branch, as an integer (R441). -/
theorem branchTarget_eq_ofInt (pc : Word) (imm : BitVec 16) :
    branchTarget pc imm = BitVec.ofInt 64 (pc.toInt + 4 + 4 * imm.toInt) := by
  have h : sextImm imm <<< 2 = BitVec.ofInt 64 (4 * imm.toInt) := by
    rw [sextImm_eq_ofInt, BitVec.shiftLeft_eq_mul_twoPow, Int.mul_comm, BitVec.ofInt_mul]
    rfl
  rw [branchTarget, h, BitVec.ofInt_add, BitVec.ofInt_add, BitVec.ofInt_toInt]
  rfl

end Sys2Proof.Machine
end

