-- ==== Sys2Proof/Tests/Slice0.lean ====
section
/-! SUPPORT. The author's own tests: the smoke of WellFormed, one written word per row of the opcode table, single steps
with the results 95_test_vectors.md gives (its vector numbers stand in the docstrings), and for every statement with
hypotheses a state and operands that meet them. -/

namespace Sys2Proof.Tests

open Sys2Proof.Machine

/-! ## Small states and observations -/

/-- The state after the instruction, when there is one. -/
def after (i : Instr) (s : State) : Option State :=
  match exec i s with
  | .next t => some t
  | .fault _ => none
  | .refused _ => none

/-- A register after the instruction. -/
def regAfter (i : Instr) (s : State) (r : RegNo) : Option Word := (after i s).map (·.readReg r)

/-- HI and LO after the instruction. -/
def hiLoAfter (i : Instr) (s : State) : Option (Word × Word) := (after i s).map (fun t => (t.hi, t.lo))

/-- Where execution goes behind the delay slot of a branch, and whether the slot is killed. -/
def flow (i : Instr) (s : State) : Option (Word × Bool) :=
  match (after i s).map (·.delay) with
  | some (some d) => some (d.next, d.killed)
  | _ => none

/-- `n` bytes of memory after the instruction, as a number. -/
def bytesAfter (i : Instr) (s : State) (a n : Nat) : Option Nat := (after i s).map (fun t => readBE t.mem a n)

/-- The name the instruction is refused by. -/
def refusal (i : Instr) (s : State) : Option Refusal :=
  match exec i s with
  | .next _ => none
  | .fault _ => none
  | .refused r => some r

/-- Whether a step answers a next state. -/
def answers (o : Host.Outcome State Fault Refusal) : Bool :=
  match o with
  | .next _ => true
  | .fault _ => false
  | .refused _ => false

theorem exists_next {o : Host.Outcome State Fault Refusal} (h : answers o = true) : ∃ t, o = .next t := by
  cases o with
  | next t => exact ⟨t, rfl⟩
  | fault f => cases h
  | refused r => cases h

/-- A state with this Status, at 0xFFFFFFFF80001000, kseg0 cached. -/
def withStatus (status : Word32) : State :=
  { State.reset with
    pc := 0xFFFFFFFF80001000#64
    inputs := { State.reset.inputs with extInt := [0#5] }
    cp0 := { State.reset.cp0 with status := status, config := 0x7006E463#32 } }

/-- The state of the vectors: 64-bit kernel mode. -/
def base : State := withStatus 0xE0#32

/-- The same at another pc. -/
def withPc (pc : Word) : State := { base with pc := pc }

/-- The same with registers 8 and 9 given. -/
def pair (a b : Word) : State := (base.writeReg 8 a).writeReg 9 b

/-- The same with HI and LO given. -/
def hiLo (h l : Word) : State := { base with hi := h, lo := l }

/-- The 16 bytes of section 0 of the vectors at 0x100. -/
def dataMem : List Host.Cell :=
  [(0x100, 0x11#8), (0x101, 0x22#8), (0x102, 0x33#8), (0x103, 0x44#8), (0x104, 0x55#8), (0x105, 0x66#8), (0x106, 0x77#8),
   (0x107, 0x88#8), (0x108, 0x99#8), (0x109, 0xAA#8), (0x10A, 0xBB#8), (0x10B, 0xCC#8), (0x10C, 0xDD#8), (0x10D, 0xEE#8),
   (0x10E, 0xFF#8)]

/-- Register 8 at that data, register 9 as the vectors have it. -/
def withData (s : State) : State :=
  ({ s with mem := dataMem }.writeReg 8 0xFFFFFFFF80000100#64).writeReg 9 0x0123456789ABCDEF#64

/-- The state of the load and store vectors. -/
def dataState : State := withData base

/-- The same after a load linked. -/
def linkedState : State := { dataState with llbit := true }

/-- 32-bit user mode, with the data address a kernel one. -/
def user32 : State := withData (withStatus 0x10#32)

/-- 64-bit user mode. -/
def user64 : State := withStatus 0x30#32

/-- A watch for loads at 0x100 (VL66). -/
def watched : State := { dataState with cp0 := { dataState.cp0 with watchLo := 0x102#32 } }

/-- A dirty line and its kseg1 address (VL70). -/
def dirtyUncached : State := { dataState with dDirty := [0x100], dMaybe := [0x100] }.writeReg 8 0xFFFFFFFFA0000100#64

/-! ## WellFormed: each check refuses an ill-formed term, and so does the machine -/

theorem test_wf_jalr :
    (Instr.jalr 8 8).wf = false ∧ (Instr.jalr 9 8).wf = true ∧ refusal (.jalr 8 8) base = some .jalrSameRegister := by
  decide

theorem test_wf_link_branches :
    (Instr.bltzal 31 4).wf = false ∧ (Instr.bgezal 31 4).wf = false ∧ (Instr.bltzall 31 4).wf = false ∧
    (Instr.bgezall 31 4).wf = false ∧ (Instr.bgezal 0 4).wf = true ∧
    refusal (.bltzal 31 4) base = some .linkBranchReadsR31 ∧ refusal (.bgezal 31 4) base = some .linkBranchReadsR31 ∧
    refusal (.bltzall 31 4) base = some .linkBranchReadsR31 ∧ refusal (.bgezall 31 4) base = some .linkBranchReadsR31 := by
  decide

theorem test_wf_cache :
    (Instr.cache 0x0C 0 8).wf = false ∧ (Instr.cache 0x1C 0 8).wf = false ∧ (Instr.cache 0x0D 0 8).wf = false ∧
    (Instr.cache 0x1D 0 8).wf = false ∧ (Instr.cache 0x02 0 8).wf = false ∧ (Instr.cache 0x15 0 8).wf = true ∧
    refusal (.cache 0x0C 0 8) dataState = some .undefinedCacheOp ∧
    refusal (.cache 0x0D 0 8) dataState = some .createDirtyExclusive ∧
    refusal (.cache 0x02 0 8) dataState = some .secondaryCacheOp := by
  decide

/-! ## More states -/

/-- The same at the delay slot of a branch at 0xFFFFFFFF80000FFC, killed or not. -/
def inSlot (killed : Bool) : State := { base with delay := some { next := 0xFFFFFFFF80001008#64, killed := killed } }

/-- Inside a handler (VY7, VE8). -/
def inHandler : State :=
  { withStatus 0xE2#32 with cp0 := { (withStatus 0xE2#32).cp0 with epc := 0xFFFFFFFF80000500#64 } }

/-- The two return addresses of ERET, LLbit set. -/
def erlState (status : Word32) : State :=
  { withStatus status with
    llbit := true
    cp0 := { (withStatus status).cp0 with errorEpc := 0xFFFFFFFF80002000#64, epc := 0xFFFFFFFF80003000#64 } }

/-- The CP0 registers of a TLB write, in 32-bit kernel mode (T0 of section 9 of the vectors). -/
def tlbSetup (index pageMask : Word32) (entryHi lo0 lo1 : Word) : State :=
  { withStatus 0#32 with
    cp0 := { (withStatus 0#32).cp0 with
      index := index, pageMask := pageMask, entryHi := entryHi, entryLo0 := lo0, entryLo1 := lo1 } }

/-- The state after two instructions, the first a TLBWI. -/
def afterTlbwi (i : Instr) (s : State) : Option State :=
  match after .tlbwi s with
  | some t => after i t
  | none => none

/-- The physical address through what TLBWI wrote. -/
def through (s : State) (va : Word) (k : AccessKind) : Option PAddr :=
  match (after .tlbwi s).map (fun t => translate t.transCtx va k) with
  | some (.ok _ pa _) => some pa
  | _ => none

/-- T0 with the countdown policy of Random. -/
def onTlbwr (wired random : Word32) : State :=
  { tlbSetup 5 0 0x2000 0x401F 0x405F with
    params := { Params.specDefault with randomPolicy := .onTlbwr }
    cp0 := { (tlbSetup 5 0 0x2000 0x401F 0x405F).cp0 with wired := wired, random := random } }

/-- The line 0x020 valid under a tag, its last word 0xABC, and register 8 an address. -/
def filled (ptag : BitVec 20) (va : Word) : State :=
  { withData base with icache := base.icache.set 0x20 { data := 0xABC, ptag := ptag, valid := true } }.writeReg 8 va

/-- Two dirty lines of one index (VC25), register 8 the address of the first. -/
def dirtyState : State := { base with dDirty := [0x800, 0x2800], dMaybe := [0x800, 0x2800] }.writeReg 8 0xFFFFFFFF80000800#64

/-- A CP1 unit attached and usable, its register 11 given. -/
def cp1State : State :=
  { withData (withStatus 0x200000E0#32) with
    params := { Params.specDefault with cp1Present := true }
    cp1 := { fpr := (Vector.replicate 32 0#64).set 11 0x0123456789ABCDEF#64, fcr := Vector.replicate 32 0#32, cond := false } }

/-- The next state of an outcome. -/
def nextOf (o : Host.Outcome State Fault Refusal) : Option State :=
  match o with
  | .next t => some t
  | .fault _ => none
  | .refused _ => none

/-- `addiu $9, $0, 1` in memory under the cached pc of `base`. -/
def cachedCode : State := { base with mem := writeBE [] 0x1000 4 0x24090001 }


/-- A user program on the mapped page at 0x2000 of T0. -/
def userCode : State :=
  { withStatus 0x10#32 with
    pc := 0x2ABC#64
    mem := writeBE [] 0x100ABC 4 0x24090001
    tlb := tlbPowerOn.set 5 (tlbEntryFromCp0 (tlbSetup 5 0 0x2000 0x401F 0x405F).cp0) }

/-! ## Decoding: one word per row of the opcode table, written from its encoding (R261 to R270) -/

theorem test_decode_arithmetic_and_logical :
    decode 0x0229D020#32 = .instr (.add 26#5 17#5 9#5) ∧
    decode 0x0229D021#32 = .instr (.addu 26#5 17#5 9#5) ∧
    decode 0x0229D022#32 = .instr (.sub 26#5 17#5 9#5) ∧
    decode 0x0229D023#32 = .instr (.subu 26#5 17#5 9#5) ∧
    decode 0x0229D02C#32 = .instr (.dadd 26#5 17#5 9#5) ∧
    decode 0x0229D02D#32 = .instr (.daddu 26#5 17#5 9#5) ∧
    decode 0x0229D02E#32 = .instr (.dsub 26#5 17#5 9#5) ∧
    decode 0x0229D02F#32 = .instr (.dsubu 26#5 17#5 9#5) ∧
    decode 0x0229D02A#32 = .instr (.slt 26#5 17#5 9#5) ∧
    decode 0x0229D02B#32 = .instr (.sltu 26#5 17#5 9#5) ∧
    decode 0x0229D024#32 = .instr (.and_ 26#5 17#5 9#5) ∧
    decode 0x0229D025#32 = .instr (.or_ 26#5 17#5 9#5) ∧
    decode 0x0229D026#32 = .instr (.xor_ 26#5 17#5 9#5) ∧
    decode 0x0229D027#32 = .instr (.nor_ 26#5 17#5 9#5) ∧
    decode 0x22298123#32 = .instr (.addi 9#5 17#5 0x8123#16) ∧
    decode 0x26298123#32 = .instr (.addiu 9#5 17#5 0x8123#16) ∧
    decode 0x62298123#32 = .instr (.daddi 9#5 17#5 0x8123#16) ∧
    decode 0x66298123#32 = .instr (.daddiu 9#5 17#5 0x8123#16) ∧
    decode 0x2A298123#32 = .instr (.slti 9#5 17#5 0x8123#16) ∧
    decode 0x2E298123#32 = .instr (.sltiu 9#5 17#5 0x8123#16) ∧
    decode 0x32298123#32 = .instr (.andi 9#5 17#5 0x8123#16) ∧
    decode 0x36298123#32 = .instr (.ori 9#5 17#5 0x8123#16) ∧
    decode 0x3A298123#32 = .instr (.xori 9#5 17#5 0x8123#16) ∧
    decode 0x3C098123#32 = .instr (.lui 9#5 0x8123#16) := by decide

theorem test_decode_shifts :
    decode 0x0009D1C0#32 = .instr (.sll 26#5 9#5 7#5) ∧
    decode 0x0009D1C2#32 = .instr (.srl 26#5 9#5 7#5) ∧
    decode 0x0009D1C3#32 = .instr (.sra 26#5 9#5 7#5) ∧
    decode 0x0009D1F8#32 = .instr (.dsll 26#5 9#5 7#5) ∧
    decode 0x0009D1FA#32 = .instr (.dsrl 26#5 9#5 7#5) ∧
    decode 0x0009D1FB#32 = .instr (.dsra 26#5 9#5 7#5) ∧
    decode 0x0009D1FC#32 = .instr (.dsll32 26#5 9#5 7#5) ∧
    decode 0x0009D1FE#32 = .instr (.dsrl32 26#5 9#5 7#5) ∧
    decode 0x0009D1FF#32 = .instr (.dsra32 26#5 9#5 7#5) ∧
    decode 0x0229D004#32 = .instr (.sllv 26#5 9#5 17#5) ∧
    decode 0x0229D006#32 = .instr (.srlv 26#5 9#5 17#5) ∧
    decode 0x0229D007#32 = .instr (.srav 26#5 9#5 17#5) ∧
    decode 0x0229D014#32 = .instr (.dsllv 26#5 9#5 17#5) ∧
    decode 0x0229D016#32 = .instr (.dsrlv 26#5 9#5 17#5) ∧
    decode 0x0229D017#32 = .instr (.dsrav 26#5 9#5 17#5) := by decide

theorem test_decode_multiply_divide :
    decode 0x02290018#32 = .instr (.mult 17#5 9#5) ∧
    decode 0x02290019#32 = .instr (.multu 17#5 9#5) ∧
    decode 0x0229001C#32 = .instr (.dmult 17#5 9#5) ∧
    decode 0x0229001D#32 = .instr (.dmultu 17#5 9#5) ∧
    decode 0x0229001A#32 = .instr (.div 17#5 9#5) ∧
    decode 0x0229001B#32 = .instr (.divu 17#5 9#5) ∧
    decode 0x0229001E#32 = .instr (.ddiv 17#5 9#5) ∧
    decode 0x0229001F#32 = .instr (.ddivu 17#5 9#5) ∧
    decode 0x0000D010#32 = .instr (.mfhi 26#5) ∧
    decode 0x0000D012#32 = .instr (.mflo 26#5) ∧
    decode 0x02200011#32 = .instr (.mthi 17#5) ∧
    decode 0x02200013#32 = .instr (.mtlo 17#5) := by decide

theorem test_decode_jumps_and_branches :
    decode 0x0AABCDEF#32 = .instr (.j 0x2ABCDEF#26) ∧
    decode 0x0EABCDEF#32 = .instr (.jal 0x2ABCDEF#26) ∧
    decode 0x02200008#32 = .instr (.jr 17#5) ∧
    decode 0x0220D009#32 = .instr (.jalr 26#5 17#5) ∧
    decode 0x12298123#32 = .instr (.beq 17#5 9#5 0x8123#16) ∧
    decode 0x16298123#32 = .instr (.bne 17#5 9#5 0x8123#16) ∧
    decode 0x1A208123#32 = .instr (.blez 17#5 0x8123#16) ∧
    decode 0x1E208123#32 = .instr (.bgtz 17#5 0x8123#16) ∧
    decode 0x52298123#32 = .instr (.beql 17#5 9#5 0x8123#16) ∧
    decode 0x56298123#32 = .instr (.bnel 17#5 9#5 0x8123#16) ∧
    decode 0x5A208123#32 = .instr (.blezl 17#5 0x8123#16) ∧
    decode 0x5E208123#32 = .instr (.bgtzl 17#5 0x8123#16) ∧
    decode 0x06208123#32 = .instr (.bltz 17#5 0x8123#16) ∧
    decode 0x06218123#32 = .instr (.bgez 17#5 0x8123#16) ∧
    decode 0x06228123#32 = .instr (.bltzl 17#5 0x8123#16) ∧
    decode 0x06238123#32 = .instr (.bgezl 17#5 0x8123#16) ∧
    decode 0x06308123#32 = .instr (.bltzal 17#5 0x8123#16) ∧
    decode 0x06318123#32 = .instr (.bgezal 17#5 0x8123#16) ∧
    decode 0x06328123#32 = .instr (.bltzall 17#5 0x8123#16) ∧
    decode 0x06338123#32 = .instr (.bgezall 17#5 0x8123#16) := by decide

theorem test_decode_loads :
    decode 0x8289FFF4#32 = .instr (.lb 9#5 0xFFF4#16 20#5) ∧
    decode 0x9289FFF4#32 = .instr (.lbu 9#5 0xFFF4#16 20#5) ∧
    decode 0x8689FFF4#32 = .instr (.lh 9#5 0xFFF4#16 20#5) ∧
    decode 0x9689FFF4#32 = .instr (.lhu 9#5 0xFFF4#16 20#5) ∧
    decode 0x8E89FFF4#32 = .instr (.lw 9#5 0xFFF4#16 20#5) ∧
    decode 0x9E89FFF4#32 = .instr (.lwu 9#5 0xFFF4#16 20#5) ∧
    decode 0xDE89FFF4#32 = .instr (.ld 9#5 0xFFF4#16 20#5) ∧
    decode 0x8A89FFF4#32 = .instr (.lwl 9#5 0xFFF4#16 20#5) ∧
    decode 0x9A89FFF4#32 = .instr (.lwr 9#5 0xFFF4#16 20#5) ∧
    decode 0x6A89FFF4#32 = .instr (.ldl 9#5 0xFFF4#16 20#5) ∧
    decode 0x6E89FFF4#32 = .instr (.ldr 9#5 0xFFF4#16 20#5) := by decide

theorem test_decode_stores_and_linked :
    decode 0xA289FFF4#32 = .instr (.sb 9#5 0xFFF4#16 20#5) ∧
    decode 0xA689FFF4#32 = .instr (.sh 9#5 0xFFF4#16 20#5) ∧
    decode 0xAE89FFF4#32 = .instr (.sw 9#5 0xFFF4#16 20#5) ∧
    decode 0xFE89FFF4#32 = .instr (.sd 9#5 0xFFF4#16 20#5) ∧
    decode 0xAA89FFF4#32 = .instr (.swl 9#5 0xFFF4#16 20#5) ∧
    decode 0xBA89FFF4#32 = .instr (.swr 9#5 0xFFF4#16 20#5) ∧
    decode 0xB289FFF4#32 = .instr (.sdl 9#5 0xFFF4#16 20#5) ∧
    decode 0xB689FFF4#32 = .instr (.sdr 9#5 0xFFF4#16 20#5) ∧
    decode 0xC289FFF4#32 = .instr (.ll 9#5 0xFFF4#16 20#5) ∧
    decode 0xE289FFF4#32 = .instr (.sc 9#5 0xFFF4#16 20#5) ∧
    decode 0xD289FFF4#32 = .instr (.lld 9#5 0xFFF4#16 20#5) ∧
    decode 0xF289FFF4#32 = .instr (.scd 9#5 0xFFF4#16 20#5) ∧
    decode 0x0000000F#32 = .instr .sync := by decide

theorem test_decode_cp0 :
    decode 0x4009D000#32 = .instr (.mfc0 9#5 26#5) ∧
    decode 0x4029D000#32 = .instr (.dmfc0 9#5 26#5) ∧
    decode 0x4089D000#32 = .instr (.mtc0 9#5 26#5) ∧
    decode 0x40A9D000#32 = .instr (.dmtc0 9#5 26#5) ∧
    decode 0x42000001#32 = .instr .tlbr ∧
    decode 0x42000002#32 = .instr .tlbwi ∧
    decode 0x42000006#32 = .instr .tlbwr ∧
    decode 0x42000008#32 = .instr .tlbp ∧
    decode 0x42000018#32 = .instr .eret := by decide

theorem test_decode_exceptions_and_traps :
    decode 0x02AF378C#32 = .instr (.syscall 0xABCDE#20) ∧
    decode 0x02AF378D#32 = .instr (.break_ 0xABCDE#20) ∧
    decode 0x022937B0#32 = .instr (.tge 17#5 9#5 0xDE#10) ∧
    decode 0x022937B1#32 = .instr (.tgeu 17#5 9#5 0xDE#10) ∧
    decode 0x022937B2#32 = .instr (.tlt 17#5 9#5 0xDE#10) ∧
    decode 0x022937B3#32 = .instr (.tltu 17#5 9#5 0xDE#10) ∧
    decode 0x022937B4#32 = .instr (.teq 17#5 9#5 0xDE#10) ∧
    decode 0x022937B6#32 = .instr (.tne 17#5 9#5 0xDE#10) ∧
    decode 0x06288123#32 = .instr (.tgei 17#5 0x8123#16) ∧
    decode 0x06298123#32 = .instr (.tgeiu 17#5 0x8123#16) ∧
    decode 0x062A8123#32 = .instr (.tlti 17#5 0x8123#16) ∧
    decode 0x062B8123#32 = .instr (.tltiu 17#5 0x8123#16) ∧
    decode 0x062C8123#32 = .instr (.teqi 17#5 0x8123#16) ∧
    decode 0x062E8123#32 = .instr (.tnei 17#5 0x8123#16) := by decide

theorem test_decode_cache_and_coprocessors :
    decode 0xBE95FFF4#32 = .instr (.cache 21#5 0xFFF4#16 20#5) ∧
    decode 0x44A45678#32 = .instr (.cop1 0xA45678#26) ∧
    decode 0xC689FFF4#32 = .instr (.lwc1 9#5 0xFFF4#16 20#5) ∧
    decode 0xD689FFF4#32 = .instr (.ldc1 9#5 0xFFF4#16 20#5) ∧
    decode 0xE689FFF4#32 = .instr (.swc1 9#5 0xFFF4#16 20#5) ∧
    decode 0xF689FFF4#32 = .instr (.sdc1 9#5 0xFFF4#16 20#5) ∧
    decode 0x48A45678#32 = .instr (.cop2 0xA45678#26) ∧
    decode 0xCA89FFF4#32 = .instr (.lwc2 9#5 0xFFF4#16 20#5) ∧
    decode 0xDA89FFF4#32 = .instr (.ldc2 9#5 0xFFF4#16 20#5) ∧
    decode 0xEA89FFF4#32 = .instr (.swc2 9#5 0xFFF4#16 20#5) ∧
    decode 0xFA89FFF4#32 = .instr (.sdc2 9#5 0xFFF4#16 20#5) := by decide

/-! ## Arithmetic, logic and shifts -/

/-- Vectors VA1 to VA22. -/
theorem test_word_arithmetic :
    regAfter (.add 10 8 9) (pair 5#64 7#64) 10 = some 0xC#64 ∧
    regAfter (.add 10 8 9) (pair 0xFFFFFFFFFFFFFFFF#64 1#64) 10 = some 0#64 ∧
    regAfter (.addu 10 8 9) (pair 0x7FFFFFFF#64 1#64) 10 = some 0xFFFFFFFF80000000#64 ∧
    regAfter (.addu 10 8 9) (pair 0x100000005#64 2#64) 10 = some 7#64 ∧
    regAfter (.sub 10 8 9) (pair 5#64 7#64) 10 = some 0xFFFFFFFFFFFFFFFE#64 ∧
    regAfter (.subu 10 8 9) (pair 0xFFFFFFFF80000000#64 1#64) 10 = some 0x7FFFFFFF#64 ∧
    regAfter (.subu 10 8 9) (pair 0#64 0xFFFFFFFF80000000#64) 10 = some 0xFFFFFFFF80000000#64 ∧
    regAfter (.addi 9 8 0x8000) (pair 0#64 0#64) 9 = some 0xFFFFFFFFFFFF8000#64 ∧
    regAfter (.addiu 9 8 0x0001) (pair 0x7FFFFFFF#64 0#64) 9 = some 0xFFFFFFFF80000000#64 ∧
    regAfter (.addiu 9 8 0xFFFF) (pair 0xFFFFFFFF80000000#64 0#64) 9 = some 0x7FFFFFFF#64 := by decide

/-- Vectors VA24 to VA34. -/
theorem test_doubleword_arithmetic :
    regAfter (.dadd 10 8 9) (pair 0xFFFFFFFF#64 1#64) 10 = some 0x100000000#64 ∧
    regAfter (.daddu 10 8 9) (pair 0x7FFFFFFFFFFFFFFF#64 1#64) 10 = some 0x8000000000000000#64 ∧
    regAfter (.dsub 10 8 9) (pair 0#64 1#64) 10 = some 0xFFFFFFFFFFFFFFFF#64 ∧
    regAfter (.dsubu 10 8 9) (pair 0x8000000000000000#64 1#64) 10 = some 0x7FFFFFFFFFFFFFFF#64 ∧
    regAfter (.daddi 9 8 0xFFFF) (pair 0x80000000#64 0#64) 9 = some 0x7FFFFFFF#64 ∧
    regAfter (.daddiu 9 8 0x0001) (pair 0x7FFFFFFFFFFFFFFF#64 0#64) 9 = some 0x8000000000000000#64 := by decide

/-- Vectors VA35 to VA49. -/
theorem test_compare_and_logic :
    regAfter (.slt 10 8 9) (pair 0xFFFFFFFFFFFFFFFF#64 0#64) 10 = some 1#64 ∧
    regAfter (.sltu 10 8 9) (pair 0xFFFFFFFFFFFFFFFF#64 0#64) 10 = some 0#64 ∧
    regAfter (.slti 9 8 0x0000) (pair 0x8000000000000000#64 0#64) 9 = some 1#64 ∧
    regAfter (.sltiu 9 8 0x8000) (pair 0xFFFFFFFFFFFF7FFF#64 0#64) 9 = some 1#64 ∧
    regAfter (.and_ 10 8 9) (pair 0xFF00FF00FF00FF00#64 0xFF00FF00FF00FF0#64) 10 = some 0xF000F000F000F00#64 ∧
    regAfter (.or_ 10 8 9) (pair 0xFF00FF00FF00FF00#64 0xFF00FF00FF00FF0#64) 10 = some 0xFFF0FFF0FFF0FFF0#64 ∧
    regAfter (.xor_ 10 8 9) (pair 0xFF00FF00FF00FF00#64 0xFF00FF00FF00FF0#64) 10 = some 0xF0F0F0F0F0F0F0F0#64 ∧
    regAfter (.nor_ 10 8 9) (pair 0#64 0#64) 10 = some 0xFFFFFFFFFFFFFFFF#64 ∧
    regAfter (.andi 9 8 0x8000) (pair 0xFFFFFFFFFFFFFFFF#64 0#64) 9 = some 0x8000#64 ∧
    regAfter (.ori 9 8 0xFFFF) (pair 0xFFFFFFFF80000000#64 0#64) 9 = some 0xFFFFFFFF8000FFFF#64 ∧
    regAfter (.xori 9 8 0x00FF) (pair 0xFFFFFFFFFFFFFFFF#64 0#64) 9 = some 0xFFFFFFFFFFFFFF00#64 ∧
    regAfter (.lui 9 0x8000) (pair 0#64 0#64) 9 = some 0xFFFFFFFF80000000#64 := by decide

/-- Vectors VA50 to VA62. -/
theorem test_word_shifts :
    regAfter (.sll 10 9 31) (pair 0#64 1#64) 10 = some 0xFFFFFFFF80000000#64 ∧
    regAfter (.sll 10 9 0) (pair 0#64 0xFFFFFFFF#64) 10 = some 0xFFFFFFFFFFFFFFFF#64 ∧
    regAfter (.srl 10 9 31) (pair 0#64 0xFFFFFFFF80000000#64) 10 = some 1#64 ∧
    regAfter (.srl 10 9 0) (pair 0#64 0xFFFFFFFF80000000#64) 10 = some 0xFFFFFFFF80000000#64 ∧
    regAfter (.sra 10 9 31) (pair 0#64 0xFFFFFFFF80000000#64) 10 = some 0xFFFFFFFFFFFFFFFF#64 ∧
    regAfter (.sllv 10 9 8) (pair 0x20#64 1#64) 10 = some 1#64 ∧
    regAfter (.srlv 10 9 8) (pair 0xFFFFFFFFFFFFFFE1#64 0xFFFFFFFF80000000#64) 10 = some 0x40000000#64 ∧
    regAfter (.srav 10 9 8) (pair 0x3F#64 0xFFFFFFFF80000000#64) 10 = some 0xFFFFFFFFFFFFFFFF#64 := by decide

/-- Vectors VA66 to VA78. -/
theorem test_doubleword_shifts :
    regAfter (.dsll 10 9 31) (pair 0#64 0x8000000000000001#64) 10 = some 0x80000000#64 ∧
    regAfter (.dsrl 10 9 31) (pair 0#64 0x8000000000000001#64) 10 = some 0x100000000#64 ∧
    regAfter (.dsra 10 9 31) (pair 0#64 0x8000000000000001#64) 10 = some 0xFFFFFFFF00000000#64 ∧
    regAfter (.dsll32 10 9 0) (pair 0#64 0x8000000000000001#64) 10 = some 0x100000000#64 ∧
    regAfter (.dsrl32 10 9 31) (pair 0#64 0x8000000000000001#64) 10 = some 1#64 ∧
    regAfter (.dsra32 10 9 0) (pair 0#64 0x8000000000000001#64) 10 = some 0xFFFFFFFF80000000#64 ∧
    regAfter (.dsllv 10 9 8) (pair 0x40#64 1#64) 10 = some 1#64 ∧
    regAfter (.dsrlv 10 9 8) (pair 0x20#64 0x8000000000000000#64) 10 = some 0x80000000#64 ∧
    regAfter (.dsrav 10 9 8) (pair 0x20#64 0x8000000000000000#64) 10 = some 0xFFFFFFFF80000000#64 := by decide

/-- Vectors VA2, VA9, VA58, VA79 to VA83: overflow, the refused operands, register 0 and the 64-bit operations. -/
theorem test_overflow_and_refusals :
    exec (.add 10 8 9) (pair 0x7FFFFFFF#64 1#64) = .next (takeException .overflow (pair 0x7FFFFFFF#64 1#64)) ∧
    exec (.add 0 8 9) (pair 0x7FFFFFFF#64 1#64) = .next (takeException .overflow (pair 0x7FFFFFFF#64 1#64)) ∧
    exec (.dsub 10 8 9) (pair 0x8000000000000000#64 1#64) =
      .next (takeException .overflow (pair 0x8000000000000000#64 1#64)) ∧
    exec (.add 10 8 9) (pair 0x100000000#64 0#64) = .refused .nonSignExtendedWord ∧
    exec (.srl 10 9 1) (pair 0#64 0x80000000#64) = .refused .nonSignExtendedWord ∧
    exec (.mult 8 9) (pair 0x100000000#64 1#64) = .refused .nonSignExtendedWord ∧
    exec (.daddu 10 8 9) user32 = .next (takeException .reserved user32) :=
  ⟨rfl, rfl, rfl, rfl, rfl, rfl, rfl⟩

/-- Vectors VA79, VA82, VA83 and E1. -/
theorem test_register_zero_and_modes :
    regAfter (.add 0 8 9) (pair 5#64 7#64) 0 = some 0#64 ∧
    regAfter (.daddu 10 8 9) ((user64.writeReg 8 1#64).writeReg 9 2#64) 10 = some 3#64 ∧
    regAfter (.dsll 10 9 4) ((withStatus 0#32).writeReg 9 1#64) 10 = some 16#64 := by decide

/-! ## Multiply, divide, HI and LO -/

/-- Vectors VM5, VM3, VM10, VM13, VM14, VM16, VM18. -/
theorem test_multiply :
    hiLoAfter (.mult 8 9) (pair 0xFFFFFFFFFFFFFFFF#64 2#64) = some (0xFFFFFFFFFFFFFFFF#64, 0xFFFFFFFFFFFFFFFE#64) ∧
    hiLoAfter (.mult 8 9) (pair 0xFFFFFFFF80000000#64 0xFFFFFFFF80000000#64) = some (0x40000000#64, 0#64) ∧
    hiLoAfter (.multu 8 9) (pair 0xFFFFFFFFFFFFFFFF#64 2#64) = some (1#64, 0xFFFFFFFFFFFFFFFE#64) ∧
    hiLoAfter (.dmult 8 9) (pair 0x8000000000000000#64 0xFFFFFFFFFFFFFFFF#64) = some (0#64, 0x8000000000000000#64) ∧
    hiLoAfter (.dmult 8 9) (pair 0x8000000000000000#64 0x8000000000000000#64) = some (0x4000000000000000#64, 0#64) ∧
    hiLoAfter (.dmultu 8 9) (pair 0xFFFFFFFFFFFFFFFF#64 0xFFFFFFFFFFFFFFFF#64) = some (0xFFFFFFFFFFFFFFFE#64, 1#64) ∧
    hiLoAfter (.dmultu 8 9) (pair 0x8000000000000000#64 0xFFFFFFFFFFFFFFFF#64) = some (0x7FFFFFFFFFFFFFFF#64, 0x8000000000000000#64) := by decide

/-- Vectors VM21, VM22, VM24, VM28, VM34, VM36, VM40, VM42. -/
theorem test_divide :
    hiLoAfter (.div 8 9) (pair 0xFFFFFFFFFFFFFFF9#64 2#64) = some (0xFFFFFFFFFFFFFFFF#64, 0xFFFFFFFFFFFFFFFD#64) ∧
    hiLoAfter (.div 8 9) (pair 0xFFFFFFFF80000000#64 0xFFFFFFFFFFFFFFFF#64) = some (0#64, 0xFFFFFFFF80000000#64) ∧
    hiLoAfter (.divu 8 9) (pair 0xFFFFFFFFFFFFFFF9#64 2#64) = some (1#64, 0x7FFFFFFC#64) ∧
    hiLoAfter (.divu 8 9) (pair 7#64 0xFFFFFFFFFFFFFFFE#64) = some (7#64, 0#64) ∧
    hiLoAfter (.ddiv 8 9) (pair 7#64 0xFFFFFFFFFFFFFFFE#64) = some (1#64, 0xFFFFFFFFFFFFFFFD#64) ∧
    hiLoAfter (.ddiv 8 9) (pair 0x8000000000000000#64 0xFFFFFFFFFFFFFFFF#64) = some (0#64, 0x8000000000000000#64) ∧
    hiLoAfter (.ddivu 8 9) (pair 7#64 0xFFFFFFFFFFFFFFFE#64) = some (7#64, 0#64) ∧
    hiLoAfter (.ddivu 8 9) (pair 0xFFFFFFFFFFFFFFFF#64 0x10#64) = some (0xF#64, 0xFFFFFFFFFFFFFFF#64) := by decide

/-- Vectors VM44 to VM46, VL69. -/
theorem test_hilo_moves :
    regAfter (.mfhi 10) (hiLo 3#64 4#64) 10 = some 3#64 ∧
    regAfter (.mflo 10) (hiLo 3#64 4#64) 10 = some 4#64 ∧
    hiLoAfter (.mthi 8) ((hiLo 3#64 4#64).writeReg 8 5#64) = some (5#64, 4#64) ∧
    hiLoAfter (.mtlo 8) ((hiLo 3#64 4#64).writeReg 8 5#64) = some (3#64, 5#64) ∧
    (after .sync base).map (·.pc) = some 0xFFFFFFFF80001004#64 := by decide

/-! ## Jumps and branches -/

/-- Vectors VB1 to VB10, VB46 to VB48. -/
theorem test_equality_branches :
    flow (.beq 8 9 0x0004) (pair 5#64 5#64) = some (0xFFFFFFFF80001014#64, false) ∧
    flow (.beq 8 9 0x0004) (pair 0x100000005#64 5#64) = some (0xFFFFFFFF80001008#64, false) ∧
    flow (.bne 8 9 0x0004) (pair 5#64 6#64) = some (0xFFFFFFFF80001014#64, false) ∧
    flow (.bne 8 9 0x0004) (pair 5#64 5#64) = some (0xFFFFFFFF80001008#64, false) ∧
    flow (.beql 8 9 0x0004) (pair 5#64 5#64) = some (0xFFFFFFFF80001014#64, false) ∧
    flow (.beql 8 9 0x0004) (pair 5#64 6#64) = some (0xFFFFFFFF80001008#64, true) ∧
    flow (.bnel 8 9 0x0004) (pair 5#64 6#64) = some (0xFFFFFFFF80001014#64, false) ∧
    flow (.bnel 8 9 0x0004) (pair 5#64 5#64) = some (0xFFFFFFFF80001008#64, true) ∧
    flow (.beq 8 9 0xFFFF) (pair 0#64 0#64) = some (0xFFFFFFFF80001000#64, false) ∧
    flow (.beq 8 9 0x8000) (pair 0#64 0#64) = some (0xFFFFFFFF7FFE1004#64, false) := by decide

/-- Vectors VB11 to VB37. -/
theorem test_sign_branches :
    flow (.blez 8 0x0004) (pair 0#64 0#64) = some (0xFFFFFFFF80001014#64, false) ∧
    flow (.blez 8 0x0004) (pair 1#64 0#64) = some (0xFFFFFFFF80001008#64, false) ∧
    flow (.bgtz 8 0x0004) (pair 0x7FFFFFFFFFFFFFFF#64 0#64) = some (0xFFFFFFFF80001014#64, false) ∧
    flow (.bgtz 8 0x0004) (pair 0#64 0#64) = some (0xFFFFFFFF80001008#64, false) ∧
    flow (.bltz 8 0x0004) (pair 0x8000000000000000#64 0#64) = some (0xFFFFFFFF80001014#64, false) ∧
    flow (.bltz 8 0x0004) (pair 0#64 0#64) = some (0xFFFFFFFF80001008#64, false) ∧
    flow (.bgez 8 0x0004) (pair 0x80000000#64 0#64) = some (0xFFFFFFFF80001014#64, false) ∧
    flow (.bgez 8 0x0004) (pair 0xFFFFFFFFFFFFFFFF#64 0#64) = some (0xFFFFFFFF80001008#64, false) ∧
    flow (.blezl 8 0x0004) (pair 0xFFFFFFFFFFFFFFFF#64 0#64) = some (0xFFFFFFFF80001014#64, false) ∧
    flow (.blezl 8 0x0004) (pair 1#64 0#64) = some (0xFFFFFFFF80001008#64, true) ∧
    flow (.bgtzl 8 0x0004) (pair 1#64 0#64) = some (0xFFFFFFFF80001014#64, false) ∧
    flow (.bgtzl 8 0x0004) (pair 0xFFFFFFFFFFFFFFFF#64 0#64) = some (0xFFFFFFFF80001008#64, true) ∧
    flow (.bltzl 8 0x0004) (pair 0xFFFFFFFFFFFFFFFF#64 0#64) = some (0xFFFFFFFF80001014#64, false) ∧
    flow (.bltzl 8 0x0004) (pair 1#64 0#64) = some (0xFFFFFFFF80001008#64, true) ∧
    flow (.bgezl 8 0x0004) (pair 0#64 0#64) = some (0xFFFFFFFF80001014#64, false) ∧
    flow (.bgezl 8 0x0004) (pair 0xFFFFFFFFFFFFFFFF#64 0#64) = some (0xFFFFFFFF80001008#64, true) := by decide

/-- Vectors VB38 to VB45. -/
theorem test_linking_branches :
    flow (.bltzal 8 0x0004) (pair 1#64 0#64) = some (0xFFFFFFFF80001008#64, false) ∧
    flow (.bltzal 8 0x0004) (pair 0xFFFFFFFFFFFFFFFF#64 0#64) = some (0xFFFFFFFF80001014#64, false) ∧
    flow (.bgezal 8 0x0004) (pair 0xFFFFFFFFFFFFFFFF#64 0#64) = some (0xFFFFFFFF80001008#64, false) ∧
    flow (.bgezal 8 0x0004) (pair 1#64 0#64) = some (0xFFFFFFFF80001014#64, false) ∧
    flow (.bltzall 8 0x0004) (pair 1#64 0#64) = some (0xFFFFFFFF80001008#64, true) ∧
    flow (.bltzall 8 0x0004) (pair 0xFFFFFFFFFFFFFFFF#64 0#64) = some (0xFFFFFFFF80001014#64, false) ∧
    flow (.bgezall 8 0x0004) (pair 0xFFFFFFFFFFFFFFFF#64 0#64) = some (0xFFFFFFFF80001008#64, true) ∧
    flow (.bgezall 8 0x0004) (pair 1#64 0#64) = some (0xFFFFFFFF80001014#64, false) ∧
    regAfter (.bltzal 8 4) (pair 1#64 0#64) 31 = some 0xFFFFFFFF80001008#64 ∧
    regAfter (.bgezal 8 4) (pair 1#64 0#64) 31 = some 0xFFFFFFFF80001008#64 ∧
    regAfter (.bltzall 8 4) (pair 1#64 0#64) 31 = some 0xFFFFFFFF80001008#64 ∧
    regAfter (.bgezall 8 4) (pair 1#64 0#64) 31 = some 0xFFFFFFFF80001008#64 := by decide

/-- Vectors VJ1 to VJ9. -/
theorem test_jumps :
    flow (.j 0x0000100) base = some (0xFFFFFFFF80000400#64, false) ∧
    flow (.j 0x0000040) (withPc 0xFFFFFFFF8FFFFFFC#64) = some (0xFFFFFFFF90000100#64, false) ∧
    flow (.jal 0x0000800) base = some (0xFFFFFFFF80002000#64, false) ∧
    regAfter (.jal 0x0000800) base 31 = some 0xFFFFFFFF80001008#64 ∧
    flow (.jr 8) (pair 0xFFFFFFFF80000200#64 0#64) = some (0xFFFFFFFF80000200#64, false) ∧
    flow (.jalr 9 8) (pair 0xFFFFFFFF80000200#64 0#64) = some (0xFFFFFFFF80000200#64, false) ∧
    regAfter (.jalr 9 8) (pair 0xFFFFFFFF80000200#64 0#64) 9 = some 0xFFFFFFFF80001008#64 := by decide

/-! ## Loads and stores -/

/-- Vectors VL1 to VL15. -/
theorem test_loads :
    regAfter (.lb 9 7 8) dataState 9 = some 0xFFFFFFFFFFFFFF88#64 ∧
    regAfter (.lb 9 0 8) dataState 9 = some 0x0000000000000011#64 ∧
    regAfter (.lbu 9 7 8) dataState 9 = some 0x0000000000000088#64 ∧
    regAfter (.lh 9 8 8) dataState 9 = some 0xFFFFFFFFFFFF99AA#64 ∧
    regAfter (.lh 9 6 8) dataState 9 = some 0x0000000000007788#64 ∧
    regAfter (.lhu 9 8 8) dataState 9 = some 0x00000000000099AA#64 ∧
    regAfter (.lw 9 8 8) dataState 9 = some 0xFFFFFFFF99AABBCC#64 ∧
    regAfter (.lw 9 0 8) dataState 9 = some 0x0000000011223344#64 ∧
    regAfter (.lwu 9 8 8) dataState 9 = some 0x0000000099AABBCC#64 ∧
    regAfter (.ld 9 0 8) dataState 9 = some 0x1122334455667788#64 := by decide

/-- Vectors VL16 to VL35. -/
theorem test_partial_loads :
    regAfter (.lwl 9 1 8) dataState 9 = some 0x00000000223344EF#64 ∧
    regAfter (.lwl 9 7 8) dataState 9 = some 0xFFFFFFFF88ABCDEF#64 ∧
    regAfter (.lwr 9 2 8) dataState 9 = some 0xFFFFFFFF89112233#64 ∧
    regAfter (.lwr 9 3 8) dataState 9 = some 0x0000000011223344#64 ∧
    regAfter (.ldl 9 3 8) dataState 9 = some 0x4455667788ABCDEF#64 ∧
    regAfter (.ldl 9 7 8) dataState 9 = some 0x8823456789ABCDEF#64 ∧
    regAfter (.ldr 9 2 8) dataState 9 = some 0x0123456789112233#64 ∧
    regAfter (.ldr 9 7 8) dataState 9 = some 0x1122334455667788#64 := by decide

/-- Vectors VL36 to VL40. -/
theorem test_stores :
    bytesAfter (.sb 9 3 8) dataState 0x100 8 = some 0x112233EF55667788 ∧
    bytesAfter (.sh 9 2 8) dataState 0x100 8 = some 0x1122CDEF55667788 ∧
    bytesAfter (.sw 9 4 8) dataState 0x100 8 = some 0x1122334489ABCDEF ∧
    bytesAfter (.sd 9 8 8) dataState 0x100 16 = some 0x11223344556677880123456789ABCDEF := by decide

/-- Vectors VL41 to VL55. -/
theorem test_partial_stores :
    bytesAfter (.swl 9 1 8) dataState 0x100 8 = some 0x1189ABCD55667788 ∧
    bytesAfter (.swl 9 6 8) dataState 0x100 8 = some 0x11223344556689AB ∧
    bytesAfter (.swr 9 1 8) dataState 0x100 8 = some 0xCDEF334455667788 ∧
    bytesAfter (.swr 9 6 8) dataState 0x100 8 = some 0x11223344ABCDEF88 ∧
    bytesAfter (.sdl 9 3 8) dataState 0x100 8 = some 0x1122330123456789 ∧
    bytesAfter (.sdl 9 7 8) dataState 0x100 8 = some 0x1122334455667701 ∧
    bytesAfter (.sdr 9 2 8) dataState 0x100 8 = some 0xABCDEF4455667788 ∧
    bytesAfter (.sdr 9 10 8) dataState 0x108 8 = some 0xABCDEFCCDDEEFF00 := by decide

/-- Vectors VLL1 to VLL8. -/
theorem test_linked_and_conditional :
    (after (.ll 9 0 8) dataState).map (fun t => (t.readReg 9, t.llbit, t.cp0.llAddr)) =
      some (0x11223344#64, true, 0x10#32) ∧
    (after (.lld 9 0 8) dataState).map (fun t => (t.readReg 9, t.llbit)) = some (0x1122334455667788#64, true) ∧
    bytesAfter (.sc 9 0 8) linkedState 0x100 8 = some 0x89ABCDEF55667788 ∧
    regAfter (.sc 9 0 8) linkedState 9 = some 1#64 ∧
    regAfter (.sc 9 0 8) dataState 9 = some 0#64 ∧
    bytesAfter (.sc 9 0 8) dataState 0x100 8 = some 0x1122334455667788 ∧
    bytesAfter (.scd 9 8 8) linkedState 0x108 8 = some 0x0123456789ABCDEF ∧
    regAfter (.scd 9 8 8) dataState 9 = some 0#64 := by decide

/-- Vectors VL56 to VL62, VL66, VL70, VLL5: the exceptions and a refusal of the accesses. -/
theorem test_access_exceptions :
    exec (.lw 9 2 8) dataState = .next (takeException (.addrError .load 0xFFFFFFFF80000102#64) dataState) ∧
    exec (.sd 9 4 8) dataState = .next (takeException (.addrError .store 0xFFFFFFFF80000104#64) dataState) ∧
    exec (.sc 9 2 8) dataState = .next (takeException (.addrError .store 0xFFFFFFFF80000102#64) dataState) ∧
    exec (.ld 9 0 8) user32 = .next (takeException .reserved user32) ∧
    exec (.lw 9 0 8) user32 = .next (takeException (.addrError .load 0xFFFFFFFF80000100#64) user32) ∧
    exec (.lw 9 0 8) watched = .next (takeException .watch watched) ∧
    exec (.lw 9 0 8) dirtyUncached = .refused .uncachedReadOfDirty :=
  ⟨rfl, rfl, rfl, rfl, rfl, rfl, rfl⟩

/-- VL64, VL67: a load for register 0 is made and discarded, a store passes a watch for loads. -/
theorem test_load_zero_and_watch :
    regAfter (.lw 0 0 8) dataState 0 = some 0#64 ∧ (after (.lw 0 0 8) dataState).map (·.dMaybe) = some [0x100] ∧
    bytesAfter (.sw 9 4 8) watched 0x100 8 = some 0x1122334489ABCDEF := by decide

/-! ## System instructions -/

/-- Vectors VX1 to VX12. -/
theorem test_register_traps :
    exec (.tge 8 9 0) (pair 0#64 0xFFFFFFFFFFFFFFFF#64) = .next (takeException .trap (pair 0#64 0xFFFFFFFFFFFFFFFF#64)) ∧
    (after (.tge 8 9 0) (pair 0xFFFFFFFFFFFFFFFF#64 0#64)).map (·.pc) = some 0xFFFFFFFF80001004#64 ∧
    (after (.tgeu 8 9 0) (pair 0#64 0xFFFFFFFFFFFFFFFF#64)).map (·.pc) = some 0xFFFFFFFF80001004#64 ∧
    exec (.tgeu 8 9 0) (pair 0xFFFFFFFFFFFFFFFF#64 0#64) = .next (takeException .trap (pair 0xFFFFFFFFFFFFFFFF#64 0#64)) ∧
    exec (.tlt 8 9 0) (pair 0xFFFFFFFFFFFFFFFF#64 0#64) = .next (takeException .trap (pair 0xFFFFFFFFFFFFFFFF#64 0#64)) ∧
    (after (.tlt 8 9 0) (pair 3#64 3#64)).map (·.pc) = some 0xFFFFFFFF80001004#64 ∧
    (after (.tltu 8 9 0) (pair 0xFFFFFFFFFFFFFFFF#64 0#64)).map (·.pc) = some 0xFFFFFFFF80001004#64 ∧
    exec (.tltu 8 9 0) (pair 0#64 0xFFFFFFFFFFFFFFFF#64) = .next (takeException .trap (pair 0#64 0xFFFFFFFFFFFFFFFF#64)) ∧
    exec (.teq 8 9 0) (pair 7#64 7#64) = .next (takeException .trap (pair 7#64 7#64)) ∧
    (after (.teq 8 9 0) (pair 0x100000007#64 7#64)).map (·.pc) = some 0xFFFFFFFF80001004#64 ∧
    (after (.tne 8 9 0) (pair 7#64 7#64)).map (·.pc) = some 0xFFFFFFFF80001004#64 ∧
    exec (.tne 8 9 0) (pair 7#64 8#64) = .next (takeException .trap (pair 7#64 8#64)) :=
  ⟨rfl, rfl, rfl, rfl, rfl, rfl, rfl, rfl, rfl, rfl, rfl, rfl⟩

/-- Vectors VX13 to VX24. -/
theorem test_immediate_traps :
    exec (.tgei 8 0xFFFF) (pair 0#64 0#64) = .next (takeException .trap (pair 0#64 0#64)) ∧
    (after (.tgei 8 0x0000) (pair 0xFFFFFFFFFFFFFFFF#64 0#64)).map (·.pc) = some 0xFFFFFFFF80001004#64 ∧
    (after (.tgeiu 8 0xFFFF) (pair 5#64 0#64)).map (·.pc) = some 0xFFFFFFFF80001004#64 ∧
    exec (.tgeiu 8 0xFFFF) (pair 0xFFFFFFFFFFFFFFFF#64 0#64) = .next (takeException .trap (pair 0xFFFFFFFFFFFFFFFF#64 0#64)) ∧
    exec (.tlti 8 0x0000) (pair 0xFFFFFFFFFFFFFFFF#64 0#64) = .next (takeException .trap (pair 0xFFFFFFFFFFFFFFFF#64 0#64)) ∧
    (after (.tlti 8 0x8000) (pair 0#64 0#64)).map (·.pc) = some 0xFFFFFFFF80001004#64 ∧
    exec (.tltiu 8 0x8000) (pair 5#64 0#64) = .next (takeException .trap (pair 5#64 0#64)) ∧
    (after (.tltiu 8 0x8000) (pair 0xFFFFFFFFFFFF8000#64 0#64)).map (·.pc) = some 0xFFFFFFFF80001004#64 ∧
    exec (.teqi 8 0xFFFF) (pair 0xFFFFFFFFFFFFFFFF#64 0#64) = .next (takeException .trap (pair 0xFFFFFFFFFFFFFFFF#64 0#64)) ∧
    (after (.teqi 8 0xFFFF) (pair 0xFFFF#64 0#64)).map (·.pc) = some 0xFFFFFFFF80001004#64 ∧
    (after (.tnei 8 0x0000) (pair 0#64 0#64)).map (·.pc) = some 0xFFFFFFFF80001004#64 ∧
    exec (.tnei 8 0x0000) (pair 1#64 0#64) = .next (takeException .trap (pair 1#64 0#64)) :=
  ⟨rfl, rfl, rfl, rfl, rfl, rfl, rfl, rfl, rfl, rfl, rfl, rfl⟩

/-- Vectors VY1 to VY7, VE1: exception entry, and the vector with BEV = 1 and with EXL = 1. -/
theorem test_exception_entry :
    exec (.syscall 0x12345) base = .next (takeException .syscall base) ∧
    exec (.break_ 7) base = .next (takeException .breakpoint base) ∧
    (takeException .syscall base).cp0.epc = 0xFFFFFFFF80001000#64 ∧
    (takeException .syscall base).pc = 0xFFFFFFFF80000180#64 ∧
    (takeException .syscall base).cp0.status = 0xE2#32 ∧
    (takeException .syscall (inSlot false)).cp0.epc = 0xFFFFFFFF80000FFC#64 ∧
    (takeException .syscall (withStatus 0x4000E0#32)).pc = 0xFFFFFFFFBFC00380#64 ∧
    (takeException .syscall inHandler).cp0.epc = 0xFFFFFFFF80000500#64 :=
  ⟨rfl, rfl, rfl, rfl, rfl, rfl, rfl, rfl⟩

/-- Vectors VT4 to VT9, VT31: the refill vectors and the recorded address. -/
theorem test_tlb_refill :
    (takeException (.tlbRefill .load 0x4ABC#64 false) user32).pc = 0xFFFFFFFF80000000#64 ∧
    (takeException (.tlbRefill .load 0x4ABC#64 true) user64).pc = 0xFFFFFFFF80000080#64 ∧
    (takeException (.tlbRefill .load 0x4ABC#64 false) inHandler).pc = 0xFFFFFFFF80000180#64 ∧
    (takeException (.tlbRefill .load 0x4ABC#64 false) user32).cp0.badVAddr = 0x4ABC#64 ∧
    (takeException (.tlbRefill .load 0x4ABC#64 false) user32).cp0.context = 0x20#64 ∧
    (takeException (.tlbRefill .load 0x4ABC#64 false) user32).cp0.xcontext = 0x20#64 ∧
    (takeException (.tlbRefill .load 0x4ABC#64 false) user32).cp0.entryHi = 0x4000#64 ∧
    (takeException (.tlbRefill .load 0xFFFFFFFFE0004ABC#64 false)
      { base with cp0 := { base.cp0 with context := 0xFFFFFFFFFF800000#64 } }).cp0.context = 0xFFFFFFFFFFF00020#64 ∧
    (takeException (.tlbRefill .load 0xFFFFFFFFE0004ABC#64 false) base).cp0.entryHi = 0xC00000FFE0004000#64 := by
  decide

/-- Vectors VN1 to VN16: the CP0 moves. -/
theorem test_cp0_moves :
    regAfter (.mfc0 8 12) (withStatus 0x34000004#32) 8 = some 0x34000004#64 ∧
    regAfter (.mfc0 8 14) { base with cp0 := { base.cp0 with epc := 0x80001234#64 } } 8 = some 0xFFFFFFFF80001234#64 ∧
    regAfter (.dmfc0 8 10) { base with cp0 := { base.cp0 with entryHi := 0xC00000000000A0FF#64 } } 8 =
      some 0xC00000000000A0FF#64 ∧
    regAfter (.mfc0 8 15) base 8 = some 0xB22#64 ∧
    (after (.mtc0 8 13) (pair 0xFFFFFFFFFFFFFC7C#64 0#64)).map (·.cp0.cause) = some 0#32 ∧
    (after (.mtc0 8 13) (pair 0x300#64 0#64)).map (·.cp0.cause) = some 0x300#32 ∧
    (after (.mtc0 8 6) (pair 5#64 0#64)).map (fun t => (t.cp0.wired, t.cp0.random)) = some (5#32, 31#32) ∧
    (after (.mtc0 8 0) (pair 0xFFFFFFFF#64 0#64)).map (·.cp0.index) = some 0x3F#32 ∧
    (after (.dmtc0 8 10) (pair 0xC000000012345FFF#64 0#64)).map (·.cp0.entryHi) = some 0xC0000000123440FF#64 ∧
    (after (.mtc0 8 10) (pair 0x80002005#64 0#64)).map (·.cp0.entryHi) = some 0xC00000FF80002005#64 := by decide

/-- Vectors VN5, VN6, VT28, VE10 to VE12, VE14: the usability checks. -/
theorem test_coprocessor_unusable :
    exec (.dmfc0 8 10) (withStatus 0x10000010#32) = .next (takeException .reserved (withStatus 0x10000010#32)) ∧
    exec (.mfc0 8 12) user32 = .next (takeException (.copUnusable 0) user32) ∧
    exec (.dmfc0 8 10) user32 = .next (takeException (.copUnusable 0) user32) ∧
    exec .tlbwi user32 = .next (takeException (.copUnusable 0) user32) ∧
    exec (.lwc1 9 0 8) base = .next (takeException (.copUnusable 1) base) ∧
    exec (.cop2 0) base = .next (takeException (.copUnusable 2) base) ∧
    exec (.cop2 0) (withStatus 0x400000E0#32) = .next (takeException .reserved (withStatus 0x400000E0#32)) :=
  ⟨rfl, rfl, rfl, rfl, rfl, rfl, rfl⟩

/-- Vectors VE5, VE6, VY9: ERET. -/
theorem test_eret :
    (after .eret (erlState 0x00400004#32)).map (fun t => (t.pc, t.cp0.status, t.llbit)) =
      some (0xFFFFFFFF80002000#64, 0x00400000#32, false) ∧
    (after .eret (erlState 0x6#32)).map (fun t => (t.pc, t.cp0.status)) = some (0xFFFFFFFF80002000#64, 2#32) ∧
    (after .eret (erlState 0x13#32)).map (fun t => (t.pc, t.cp0.status)) = some (0xFFFFFFFF80003000#64, 0x11#32) := by
  decide

/-- Vectors VT1 to VT3, VT17 to VT19, VT10, VT12, VT32, VT33: TLBWI and the translations through what it wrote. -/
theorem test_tlb_write_and_translate :
    (after .tlbwi (tlbSetup 5 0 0x2000 0x401F 0x405F)).map (fun t => t.tlb[5]) =
      some { mask := 0, vpn2 := 1, r := 0, asid := 0, g := true, even := { pfn := 0x100, c := 3, d := true, v := true },
             odd := { pfn := 0x101, c := 3, d := true, v := true } } ∧
    through (tlbSetup 5 0 0x2000 0x401F 0x405F) 0x2ABC#64 .load = some 0x00100ABC#32 ∧
    through (tlbSetup 5 0 0x2000 0x401F 0x405F) 0x3ABC#64 .store = some 0x00101ABC#32 ∧
    through (tlbSetup 6 0x6000 0x10000 0x801F 0x811F) 0x12345#64 .load = some 0x00202345#32 ∧
    through (tlbSetup 6 0x6000 0x10000 0x801F 0x811F) 0x16789#64 .load = some 0x00206789#32 ∧
    through (tlbSetup 6 0x6000 0x10000 0x801F 0x811F) 0x18000#64 .load = none ∧
    through (tlbSetup 5 0 0x2000 0x401B 0x405F) 0x2ABC#64 .load = some 0x00100ABC#32 ∧
    through (tlbSetup 5 0 0x2000 0x401B 0x405F) 0x2ABC#64 .store = none ∧
    through (tlbSetup 5 0 0x2000 0x400001F 0x405F) 0x2ABC#64 .load = none ∧
    through (tlbSetup 5 0x2000 0x2000 0x401F 0x405F) 0x2ABC#64 .load = none := by decide

/-- Vectors VT20, VT22, VT23, VT25, VT26: TLBR, TLBP and TLBWR under `on_tlbwr`. -/
theorem test_tlb_read_probe_random :
    (afterTlbwi .tlbr (tlbSetup 5 0 0x2000 0x401F 0x405F)).map (fun t => (t.cp0.pageMask, t.cp0.entryLo0, t.cp0.entryLo1)) =
      some (0#32, 0x401F#64, 0x405F#64) ∧
    (afterTlbwi .tlbp (tlbSetup 5 0 0x2000 0x401F 0x405F)).map (·.cp0.index) = some 5#32 ∧
    (after .tlbwr (onTlbwr 2 31)).map (fun t => (t.tlb[31].vpn2, t.cp0.random)) = some (1#27, 30#32) ∧
    (after .tlbwr (onTlbwr 2 2)).map (fun t => (t.tlb[2].vpn2, t.cp0.random)) = some (1#27, 31#32) := by decide

/-- Vectors VC7 to VC15: the instruction-cache operations, the line 0x020 filled as VC1 leaves it, or with ptag 4. -/
theorem test_icache_operations :
    (after (.cache 0x00 0 8) (filled 0 0xFFFFFFFF80004404#64)).map (fun t => (t.icache[0x20]).valid) = some false ∧
    (after (.cache 0x10 0 8) (filled 0 0xFFFFFFFF80004404#64)).map (fun t => (t.icache[0x20]).valid) = some true ∧
    (after (.cache 0x10 0 8) (filled 0 0xFFFFFFFF80000404#64)).map (fun t => (t.icache[0x20]).valid) = some false ∧
    (after (.cache 0x04 0 8) (filled 4 0xFFFFFFFF80000400#64)).map (·.cp0.tagLo) = some 0x480#32 ∧
    (after (.cache 0x08 0 8) { filled 0 0xFFFFFFFF80000400#64 with cp0 := { base.cp0 with tagLo := 0x12080#32 } }).map
      (fun t => ((t.icache[0x20]).ptag, (t.icache[0x20]).valid)) = some (0x120#20, true) ∧
    (after (.cache 0x14 0 8) (filled 4 0xFFFFFFFF80000100#64)).map (fun t => ((t.icache[8]).valid, (t.icache[8]).word 0x104)) =
      some (true, 0x55667788#32) ∧
    bytesAfter (.cache 0x18 0 8) (filled 0 0xFFFFFFFF80000400#64) 0x41C 4 = some 0xABC ∧
    refusal (.cache 0x18 0 8) { filled 0 0xFFFFFFFF80000400#64 with dMaybe := [0x400] } =
      some .icacheWriteBackOverData := by decide

/-- Vectors VC22 to VC27: the data-cache operations on the two sets. -/
theorem test_dcache_operations :
    (after (.cache 0x19 0 8) dirtyState).map (fun t => (t.dDirty, t.dMaybe)) = some ([0x2800], [0x800, 0x2800]) ∧
    (after (.cache 0x15 0 8) dirtyState).map (fun t => (t.dDirty, t.dMaybe)) = some ([0x2800], [0x2800]) ∧
    (after (.cache 0x01 0 8) dirtyState).map (fun t => (t.dDirty, t.dMaybe)) = some ([], []) ∧
    refusal (.cache 0x11 0 8) dirtyState = some .discardOfDirtyLine ∧
    (after (.cache 0x11 0 8) { dirtyState with dDirty := [] }).map (·.dMaybe) = some [0x2800] ∧
    (after (.cache 0x09 0 8) { dirtyState with dDirty := [] }).map (·.dMaybe) = some [] ∧
    refusal (.cache 0x09 0 8) { dirtyState with cp0 := { dirtyState.cp0 with tagLo := 0x40#32 } } =
      some .tagStoreCreatesLine := by decide

/-- R640: the moves between a general register and an attached CP1 unit, its loads, stores and branches. -/
theorem test_cp1_interface :
    regAfter (.cop1 0x0035800) cp1State 3 = some 0xFFFFFFFF89ABCDEF#64 ∧
    regAfter (.cop1 0x0235800) cp1State 3 = some 0x0123456789ABCDEF#64 ∧
    (after (.cop1 0x0A92000) cp1State).map (fun t => fprRead t 4) = some 0x0123456789ABCDEF#64 ∧
    (after (.ldc1 4 0 8) cp1State).map (fun t => fprRead t 4) = some 0x1122334455667788#64 ∧
    (after (.lwc1 4 0 8) cp1State).map (fun t => (t.pc, t.dMaybe)) = some (0xFFFFFFFF80001004#64, [0x100]) ∧
    bytesAfter (.swc1 11 0 8) cp1State 0x100 8 = some 0x89ABCDEF55667788 ∧
    bytesAfter (.sdc1 11 0 8) cp1State 0x100 8 = some 0x0123456789ABCDEF ∧
    flow (.cop1 0x1000004) cp1State = some (0xFFFFFFFF80001014#64, false) ∧
    flow (.cop1 0x1030004) cp1State = some (0xFFFFFFFF80001008#64, true) := by decide

/-! ## Segments, fetch and whole steps -/

/-- The unmapped physical address and cacheability of a load in a mode, none where the TLB or an exception follows. -/
def unmapped (status : Word32) (va : Word) : Option (PAddr × Bool) :=
  match translate (withStatus status).transCtx va .load with
  | .ok _ pa cached => some (pa, cached)
  | .raise _ => none
  | .stop _ => none

/-- Vectors VS1 to VS33: the unmapped segments. -/
theorem test_unmapped_segments :
    unmapped 0#32 0xFFFFFFFF80001234#64 = some (0x1234#32, true) ∧
    unmapped 0#32 0xFFFFFFFFA0001234#64 = some (0x1234#32, false) ∧
    unmapped 4#32 0x1234#64 = some (0x1234#32, false) ∧
    unmapped 0xE0#32 0x8000000012345678#64 = some (0x12345678#32, true) ∧
    unmapped 0xE0#32 0x9000000012345678#64 = some (0x12345678#32, false) ∧
    unmapped 0xE4#32 0x1234#64 = some (0x1234#32, false) := by decide

/-- Vectors VS7, VS11, VS12, VS14, VS19, VS23, VS26, VS28, VS31, VS34: the addresses without a segment. -/
theorem test_no_segment :
    translate (withStatus 0#32).transCtx 0x100000000#64 .load = .raise (.addrError .load 0x100000000#64) ∧
    translate (withStatus 0x10#32).transCtx 0x80000000#64 .store = .raise (.addrError .store 0x80000000#64) ∧
    translate (withStatus 0x30#32).transCtx 0x10000000000#64 .load = .raise (.addrError .load 0x10000000000#64) ∧
    translate (withStatus 0x48#32).transCtx 0x4000010000000000#64 .load =
      .raise (.addrError .load 0x4000010000000000#64) ∧
    translate (withStatus 0xE0#32).transCtx 0x9000000100000000#64 .load =
      .raise (.addrError .load 0x9000000100000000#64) ∧
    translate (withStatus 0xE0#32).transCtx 0xC00000FF80000000#64 .load =
      .raise (.addrError .load 0xC00000FF80000000#64) ∧
    translate (withStatus 0xE4#32).transCtx 0x80000000#64 .load = .stop .erlXkusegUpper ∧
    translate (withStatus 0x18#32).transCtx 0#64 .fetch = .stop .impossibleMode := by decide

/-- A step from reset runs the word placed where it fetches: `addiu $9, $0, 1` (R740). -/
theorem test_step_from_reset :
    (nextOf (step (State.reset.withFetchWord 32 0x24090001))).map (fun t => (t.readReg 9, t.pc)) =
      some (1#64, 0xFFFFFFFFBFC00004#64) := by decide

/-- Vectors VC1, VC5: a fetch in kseg0 misses, refills and later hits the line, whatever memory holds. -/
theorem test_cached_fetch :
    (nextOf (step cachedCode)).map (fun t => (t.readReg 9, (t.icache[0x80]).valid)) = some (1#64, true) ∧
    (nextOf (step { cachedCode.icFill 0xFFFFFFFF80001000#64 0x1000#32 with mem := [] })).map (·.readReg 9) = some 1#64 := by decide

/-- Vectors VJ12, VJ16, VS36: a jump in a delay slot, a killed slot, a misaligned pc. -/
theorem test_delay_slots :
    refusal (.j 0x100) (inSlot false) = some .branchInDelaySlot ∧
    (nextOf (step { inSlot true with mem := writeBE [] 0x1000 4 0x8D090002 })).map (fun t => (t.pc, t.delay)) =
      some (0xFFFFFFFF80001008#64, none) ∧
    (nextOf (step (withPc 0xFFFFFFFF80000002#64))).map (fun t => (t.pc, t.cp0.badVAddr)) =
      some (0xFFFFFFFF80000180#64, 0xFFFFFFFF80000002#64) := by decide

/-- Vector VN18: KSU = 0b11 with EXL = ERL = 0 is written, and the next fetch is refused as the impossible mode. -/
theorem test_impossible_mode :
    (after (.mtc0 8 12) (pair 0x18#64 0#64)).map (fun t => (t.cp0.status, fetch t)) =
      some (0x18#32, .stop .impossibleMode) := by decide

/-- R767: in a load-use slip IC keeps the fetch fault it has recorded; R541: a failing store conditional opens no window. -/
theorem test_pipeline_notes :
    let faulted := { Pipe.bubbles.icrf with hd := { Header.bubble with faultId := .iade } }
    let s : State := { base with pipe := { Pipe.bubbles with icrf := faulted, fetchHold := true, holdFront := true } }
    let rq : MemReq :=
      { op := .sc, va := 0xFFFFFFFF80000100#64, pa := 0x100#32, cached := true, addr := 0x100#32, size := 4, data := 0, old := 0 }
    stageIc s = .go s ∧ (dataState.noteStore (some rq)).hz.stores = [] ∧
    (linkedState.noteStore (some rq)).hz.stores = [{ left := 2, addr := 0x100, size := 4 }] :=
  ⟨rfl, rfl, rfl⟩

/-- R264, R640: the BC1 group is a branch, sub-opcode 8 with rt = 4 is none, MTC1 reads rt. -/
theorem test_cop1_flags :
    (Instr.cop1 0x1030004#26).flags.branch = true ∧ (Instr.cop1 0x1040004#26).flags.branch = false ∧
    (Instr.cop1 0x0840000#26).flags.needsRt = true := by decide

/-- R9, R146: a rule of the bus answers by the request's type, its width and its time; a device gives the data of its rule. -/
theorem test_bus_rules :
    let inputs := fun (r : BusRange) (now : Nat) => { State.reset.inputs with busMap := [r], busTime := now }
    let romWrite : BusRange := { base := 0x100, size := 4, kind := .error, types := [.write] }
    let wide : BusRange := { base := 0x100, size := 4, kind := .error, sizes := [8] }
    let late : BusRange := { base := 0x100, size := 4, kind := .busy 6, start := 5, stop := some 9 }
    let port : BusRange := { base := 0x100, size := 4, kind := .device, answer := some 0x1234 }
    busErrorAt (inputs romWrite 0) .write 0x100 4 = true ∧ busErrorAt (inputs romWrite 0) .read 0x100 4 = false ∧
    busErrorAt (inputs wide 0) .read 0x100 8 = true ∧ busErrorAt (inputs wide 0) .read 0x100 4 = false ∧
    [4, 5, 8, 9].map (fun now => busBusyAt (inputs late now) .read 0x103 1) = [none, some 6, some 6, none] ∧
    ({ State.reset with inputs := inputs port 0 }).busRead 0x100 1 = 0x34 := by decide

/-- R761, R774, R821: `busy(0)` aborts the cycle and resumes at DC in the next one, a whole cycle; no busy answer goes on. -/
theorem test_busy_zero :
    let slot : ExDc := { ExDc.ofHeader { Header.bubble with live := true } with
      request := some (requestOf .lw 0xFFFFFFFF80000100#64 0x100#32 true 0#64 0#64), dest := 9 }
    let s := fun answers : List (Option Nat) => ({ dataState with
      pipe := { Pipe.bubbles with exdc := slot }, inputs := { dataState.inputs with busWait := answers } } : State)
    let aborts := fun o : StageOut => match o with
      | .abort t => some (t.pipe.cyclesToStall, t.pipe.skipStages)
      | .go _ | .stop _ => none
    aborts (stageDc (s [some 0])) = some (0, 1) ∧ aborts (stageDc (s [some 3])) = some (3, 1) ∧
    aborts (stageDc (s [none])) = none ∧ aborts (stageDc (s [])) = none := by decide

/-- R146, R501: a store to a ROM whose bus answers writes with `error` takes DBE, a load from there reads it. -/
theorem test_bus_error_by_type :
    let rule : BusRange := { base := 0x100, size := 4, kind := .error, types := [.write] }
    let s : State := { dataState with inputs := { dataState.inputs with busMap := [rule] } }
    exec (.sw 9 0 8) s = .next (takeException .dataBusError s) ∧
    ∃ t, exec (.lw 9 0 8) s = .next t ∧ t.pc = s.pc + 4#64 :=
  ⟨rfl, ⟨_, rfl, rfl⟩⟩

/-- A reserved word and a word with a non-zero must-be-zero field (R271, R272). -/
theorem test_reserved_words :
    decode 0x7C000000#32 = .reserved false ∧ decode 0x4C000000#32 = .reserved false ∧ decode 0x41000000#32 = .reserved true ∧
    decode 0x00000060#32 = .mustBeZero ∧ decodeTableWord 32 0x00000060 = none := by decide

/-! ## Witnesses: for every statement with hypotheses, a state and operands that meet them -/

/-- No range of the address map, no range met. -/
theorem not_touches {s : State} (h : s.inputs.busMap = []) (ty : ReqType) (kind : BusKind) (a n : Nat) : ¬ Touches s ty kind a n := by
  simp [Touches, h]

/-- Nothing stands in the way with no watch set, no line in the bookkeeping and plain memory behind the bus. -/
theorem unhindered_of {op : MemOp} {va : Word} {s : State} {pa : PAddr} {cached : Bool}
    (tr : ∃ seg, translate s.transCtx va op.kind = .ok seg pa cached) (order : endianRefusal s.cp0 = none)
    (watch : s.cp0.watchLo = 0#32) (bit12 : cached = true → va.getLsbD 12 = pa.getLsbD 12) (dirty : s.dDirty = [])
    (may : s.dMaybe = []) (bus : s.inputs.busMap = []) : Unhindered op va s pa cached where
  translated := tr
  order := order
  unwatched := by simp [Watched, watch]
  booked := { alias12 := bit12, clean := by simp [dirty], absent := by simp [may] }
  answered := not_touches bus _ _ _ _

/-- The access at an aligned kseg0 address goes through, for every operation (the CP1 ones too). -/
theorem accessible_data (op : MemOp) : Accessible op 0xFFFFFFFF80000100#64 dataState 0x100#32 true where
  toUnhindered := unhindered_of ⟨_, by cases op <;> rfl⟩ rfl rfl (fun _ => rfl) rfl rfl rfl
  allowed := fun _ => rfl
  aligned := by cases op <;> rfl

/-- An access without an alignment requirement goes through at the last byte of a doubleword. -/
theorem accessible_unaligned (op : MemOp) (h : op.alignment = 1) :
    Accessible op 0xFFFFFFFF80000107#64 dataState 0x107#32 true where
  toUnhindered := unhindered_of ⟨_, by cases op <;> rfl⟩ rfl rfl (fun _ => rfl) rfl rfl rfl
  allowed := fun _ => rfl
  aligned := by rw [h]; rfl

/-- An uncached access in kseg1 goes through. -/
theorem accessible_uncached (op : MemOp) : Accessible op 0xFFFFFFFFA0000100#64 dataState 0x100#32 false where
  toUnhindered := unhindered_of ⟨_, by cases op <;> rfl⟩ rfl rfl nofun rfl rfl rfl
  allowed := fun _ => rfl
  aligned := by cases op <;> rfl

/-- The base register and offset of the load and store vectors give that address, also with a negative offset. -/
theorem witness_load_store_address :
    dataState.readReg 8 + BitVec.ofInt 64 (0#16).toInt = 0xFFFFFFFF80000100#64 ∧
    (dataState.writeReg 8 0xFFFFFFFF80008100#64).readReg 8 + BitVec.ofInt 64 (0x8000#16).toInt = 0xFFFFFFFF80000100#64 ∧
    dataState.readReg 8 + BitVec.ofInt 64 (7#16).toInt = 0xFFFFFFFF80000107#64 ∧ Memory.wf dataState.mem = true ∧
    linkedState.llbit = true ∧ Memory.wf linkedState.mem = true ∧ dataState.llbit = false := by decide

theorem witness_AlignedLoadResults :
    let va := dataState.readReg 8 + BitVec.ofInt 64 (0#16).toInt
    Accessible .lb va dataState 0x100#32 true ∧ Accessible .lbu va dataState 0x100#32 true ∧
    Accessible .lh va dataState 0x100#32 true ∧ Accessible .lhu va dataState 0x100#32 true ∧
    Accessible .lw va dataState 0x100#32 true ∧ Accessible .lwu va dataState 0x100#32 true ∧
    Accessible .ld va dataState 0x100#32 true := by
  simp only [witness_load_store_address.1, accessible_data, and_self]

theorem witness_PartialLoadResults :
    let va := dataState.readReg 8 + BitVec.ofInt 64 (7#16).toInt
    Accessible .lwl va dataState 0x107#32 true ∧ Accessible .lwr va dataState 0x107#32 true ∧
    Accessible .ldl va dataState 0x107#32 true ∧ Accessible .ldr va dataState 0x107#32 true := by
  simp only [witness_load_store_address.2.2.1]
  exact ⟨accessible_unaligned _ rfl, accessible_unaligned _ rfl, accessible_unaligned _ rfl, accessible_unaligned _ rfl⟩

theorem witness_AlignedStoreResults :
    let va := dataState.readReg 8 + BitVec.ofInt 64 (0#16).toInt
    Memory.wf dataState.mem = true ∧ Accessible .sb va dataState 0x100#32 true ∧
    Accessible .sh va dataState 0x100#32 true ∧ Accessible .sw va dataState 0x100#32 true ∧
    Accessible .sd va dataState 0x100#32 true := by
  simp only [witness_load_store_address.1, witness_load_store_address.2.2.2.1, accessible_data, and_self]

theorem witness_PartialStoreResults :
    let va := dataState.readReg 8 + BitVec.ofInt 64 (7#16).toInt
    Memory.wf dataState.mem = true ∧ Accessible .swl va dataState 0x107#32 true ∧
    Accessible .swr va dataState 0x107#32 true ∧ Accessible .sdl va dataState 0x107#32 true ∧
    Accessible .sdr va dataState 0x107#32 true := by
  simp only [witness_load_store_address.2.2.1]
  exact ⟨by decide, accessible_unaligned _ rfl, accessible_unaligned _ rfl, accessible_unaligned _ rfl,
    accessible_unaligned _ rfl⟩

theorem witness_LinkedAndConditionalResults :
    let va := dataState.readReg 8 + BitVec.ofInt 64 (0#16).toInt
    Accessible .ll va dataState 0x100#32 true ∧ Accessible .lld va dataState 0x100#32 true ∧
    (linkedState.llbit = true ∧ Memory.wf linkedState.mem = true ∧ linkedState.transCtx = dataState.transCtx) ∧
    Accessible .sc va dataState 0x100#32 true ∧ Accessible .scd va dataState 0x100#32 true ∧
    (dataState.llbit = false ∧ (∃ seg, translate dataState.transCtx va .store = .ok seg 0x100#32 true) ∧
      endianRefusal dataState.cp0 = none ∧ va.toNat % 8 = 0 ∧ ops64Allowed dataState.cp0.status = true) := by
  simp only [witness_load_store_address.1, accessible_data, true_and]
  exact ⟨⟨rfl, by decide, rfl⟩, rfl, ⟨_, rfl⟩, rfl, rfl, rfl⟩

theorem accessible_linked (op : MemOp) : Accessible op 0xFFFFFFFF80000100#64 linkedState 0x100#32 true where
  toUnhindered := unhindered_of ⟨_, by cases op <;> rfl⟩ rfl rfl (fun _ => rfl) rfl rfl rfl
  allowed := fun _ => rfl
  aligned := by cases op <;> rfl

/-- R237: the misaligned addresses, and the clause for the forms without a requirement. -/
theorem witness_AlignmentRule :
    let va := fun off : BitVec 16 => dataState.readReg 8 + BitVec.ofInt 64 off.toInt
    (va 1).toNat % 2 ≠ 0 ∧ (va 2).toNat % 4 ≠ 0 ∧ (va 4).toNat % 8 ≠ 0 ∧ ops64Allowed dataState.cp0.status = true ∧
    ∀ op : MemOp, op.alignment = 1 → Unhindered op (va 7) dataState 0x107#32 true := by
  refine ⟨by decide, by decide, by decide, rfl, fun op h => ?_⟩
  show Unhindered op (dataState.readReg 8 + BitVec.ofInt 64 (7#16).toInt) dataState 0x107#32 true
  exact witness_load_store_address.2.2.1 ▸ (accessible_unaligned op h).toUnhindered

/-- A range of the address map where the data of the vectors is. -/
def behindRange (kind : BusKind) (s : State) : State :=
  { s with inputs := { s.inputs with busMap := [{ base := 0x100, size := 4, kind := kind }] } }

/-- A rule with no restriction covers every request that meets its addresses. -/
theorem covers_range {base size a n now : Nat} {kind : BusKind} (ty : ReqType) (above : base < a + n) (below : a < base + size) :
    BusRange.Covers { base := base, size := size, kind := kind } now ty a n :=
  ⟨by cases ty <;> simp, .inl rfl, Nat.zero_le _, nofun, above, below⟩

theorem touches_behindRange (ty : ReqType) (kind : BusKind) (s : State) : Touches (behindRange kind s) ty kind 0x100 4 :=
  ⟨_, .head _, rfl, covers_range ty (by decide) (by decide)⟩

/-- A user program whose data page lies at another colour, with Status as given (R626). -/
def colouredPage (status : Word32) : State :=
  { withStatus status with tlb := tlbPowerOn.set 5 (tlbEntryFromCp0 (tlbSetup 5 0 0x2000 0x405F 0x405F).cp0) }

/-- R502: a translation that raises, little-endian order, reversed order in user mode. -/
theorem witness_AccessExceptions :
    let va := dataState.readReg 8 + BitVec.ofInt 64 (0#16).toInt
    let little : State := { dataState with cp0 := { dataState.cp0 with config := 0x70066463#32 } }
    let reversed := colouredPage 0x02000010#32
    va.toNat % MemOp.lw.alignment = 0 ∧ (MemOp.lw.ops64 = true → ops64Allowed user32.cp0.status = true) ∧
    (∃ e, translate user32.transCtx va .load = .raise e) ∧
    (∃ seg, translate little.transCtx va .load = .ok seg 0x100#32 true) ∧ little.cp0.config.getLsbD 15 = false ∧
    reversed.readReg 0 + BitVec.ofInt 64 (0x2ABC#16).toInt = 0x2ABC#64 ∧
    (∃ seg, translate reversed.transCtx 0x2ABC#64 .load = .ok seg 0x101ABC#32 true) ∧
    reversed.cp0.config.getLsbD 15 = true ∧ userMode reversed.cp0.status = true ∧
    reversed.cp0.status.getLsbD 25 = true :=
  ⟨rfl, nofun, ⟨_, rfl⟩, ⟨_, rfl⟩, rfl, rfl, ⟨_, rfl⟩, rfl, rfl, rfl⟩

/-- R660, R232, R626: a watched access in and out of exception level, the three refusals of the bookkeeping, a bus error. -/
theorem witness_AccessExceptions_goesOn :
    let va := dataState.readReg 8 + BitVec.ofInt 64 (0#16).toInt
    let atLevel : State := { watched with cp0 := { watched.cp0 with status := 0xE2#32 } }
    let failing := behindRange .error dataState
    (∃ seg, translate watched.transCtx va .load = .ok seg 0x100#32 true) ∧ Watched watched 0x100#32 false ∧
    (watched.cp0.status.getLsbD 1 || watched.cp0.status.getLsbD 2) = false ∧ Watched atLevel 0x100#32 false ∧
    (∃ seg, translate atLevel.transCtx va .load = .ok seg 0x100#32 true) ∧ atLevel.cp0.status.getLsbD 1 = true ∧
    ¬ Watched watched 0x100#32 true ∧
    (∃ seg, translate (colouredPage 0x10#32).transCtx 0x2ABC#64 .load = .ok seg 0x101ABC#32 true) ∧
    (0x2ABC#64).getLsbD 12 ≠ (0x101ABC#32).getLsbD 12 ∧
    (∃ seg, translate dirtyUncached.transCtx 0xFFFFFFFFA0000100#64 .load = .ok seg 0x100#32 false) ∧
    (∃ seg, translate dirtyUncached.transCtx 0xFFFFFFFFA0000100#64 .store = .ok seg 0x100#32 false) ∧
    line16 0x100#32 ∈ dirtyUncached.dDirty ∧ line16 0x100#32 ∈ dirtyUncached.dMaybe ∧
    ¬ Watched dirtyUncached 0x100#32 false ∧ Allowed failing false true va 0x100#32 ∧
    (∃ seg, translate failing.transCtx va .load = .ok seg 0x100#32 true) ∧
    Touches failing .read .error (MemOp.lw.firstByte 0x100#32).toNat (MemOp.lw.byteCount 0x100#32) :=
  ⟨⟨_, rfl⟩, ⟨rfl, rfl, rfl⟩, rfl, ⟨rfl, rfl, rfl⟩, ⟨_, rfl⟩, rfl, fun h => absurd h.2.2 (by decide), ⟨_, rfl⟩, by decide,
   ⟨_, rfl⟩, ⟨_, rfl⟩, by decide, by decide, fun h => absurd h.2.2 (by decide),
   ⟨fun _ => rfl, nofun, nofun⟩, ⟨_, rfl⟩, touches_behindRange _ _ _⟩

/-- R640, R572: misaligned CP1 accesses, a CP1 translation that raises, CACHE's translation and quirk. -/
theorem witness_AccessExceptions_cp1 :
    let va := fun off : BitVec 16 => cp1State.readReg 8 + BitVec.ofInt 64 off.toInt
    let user : State := { cp1State with cp0 := { cp1State.cp0 with status := 0x20000010#32 } }
    cp1State.cp0.status.getLsbD 29 = true ∧ cp1State.params.cp1Present = true ∧ (va 2).toNat % 4 ≠ 0 ∧
    (va 4).toNat % 8 ≠ 0 ∧ (va 0).toNat % MemOp.sdc1.alignment = 0 ∧ user.cp0.status.getLsbD 29 = true ∧
    user.params.cp1Present = true ∧ (∃ e, translate user.transCtx (va 0) .store = .raise e) ∧
    (∃ seg, translate cp1State.transCtx (va 0) .store = .ok seg 0x100#32 true) ∧
    Allowed cp1State true true (va 0) 0x100#32 ∧
    (cp0Usable 0x10000010#32 = true ∧ ∃ e, translate (withStatus 0x10000010#32).transCtx (va 0) .load = .raise e) ∧
    ({ dataState with params := { dataState.params with noopQuirks := true } } : State).params.noopQuirks = true :=
  ⟨rfl, rfl, by decide, by decide, rfl, rfl, rfl, ⟨_, rfl⟩, ⟨_, rfl⟩, ⟨fun _ => rfl, nofun, nofun⟩, ⟨rfl, _, rfl⟩, rfl⟩

/-- R142, R241, R244: any well-formed memory, the bytes of the vectors' among them; plain memory, a ROM and a device; a device
whose data is given, behind a rule for other widths. -/
theorem witness_MixedWidths :
    Memory.wf dataMem = true ∧ (0 : Nat) < 1 ∧ (∀ ty kind, ¬ Touches dataState ty kind 0x100 4) ∧
    Touches (behindRange .rom dataState) .write .rom 0x100 4 ∧
    Touches (behindRange .device dataState) .write .device 0x100 4 ∧
    (∀ q ∈ [({ base := 0x100, size := 4, kind := .device, sizes := [1] } : BusRange)], q.kind = .device →
      ¬ q.Covers 0 .read 0x100 4) ∧
    BusRange.Covers { base := 0x100, size := 4, kind := .device, answer := some 7 } 0 .read 0x100 4 :=
  ⟨by decide, by decide, fun _ _ => not_touches rfl _ _ _ _, touches_behindRange _ _ _, touches_behindRange _ _ _,
   fun q hq _ h => by
    obtain rfl : q = _ := List.mem_singleton.mp hq
    exact absurd h.sized (by decide),
   ⟨by decide, .inl rfl, Nat.zero_le _, nofun, by decide, by decide⟩⟩

/-- R730: the cold-reset signal asserted. -/
theorem witness_ColdResetHandler : State.powerOn.coldReset = true := rfl

/-- A fetch from kseg0 that misses, one that hits, and one from kseg1. -/
theorem witness_StepRunsDecodedInstruction :
    let uncachedCode : State := { cachedCode with pc := 0xFFFFFFFFA0001000#64 }
    let hit : State := cachedCode.icFill cachedCode.pc 0x1000#32
    (cachedCode.coldReset = false ∧ (∃ seg, Fetchable (beginStep cachedCode) seg 0x1000#32 true) ∧
      Runs (beginStep cachedCode) ∧ (beginStep cachedCode).fetchProbe (beginStep cachedCode).pc 0x1000#32 = none ∧
      anyLine (beginStep cachedCode).dDirty (lineBase 0x1000#32) 32 = false ∧
      decodeBytes (bytesAt (beginStep cachedCode) 0x1000#32) = some (.instr (.addiu 9 0 1), [])) ∧
    (uncachedCode.coldReset = false ∧ (∃ seg, Fetchable (beginStep uncachedCode) seg 0x1000#32 false) ∧
      Runs (beginStep uncachedCode) ∧ anyLine (beginStep uncachedCode).dDirty (0x1000#32).toNat 4 = false ∧
      decodeBytes (bytesAt (beginStep uncachedCode) 0x1000#32) = some (.instr (.addiu 9 0 1), [])) ∧
    (hit.coldReset = false ∧ (∃ seg, Fetchable (beginStep hit) seg 0x1000#32 true) ∧ Runs (beginStep hit) ∧
      ∃ l, (beginStep hit).fetchProbe (beginStep hit).pc 0x1000#32 = some l ∧
        decode (l.word 0x1000#32) = .instr (.addiu 9 0 1)) ∧
    (∀ ty kind a n, ¬ Touches (beginStep cachedCode) ty kind a n) ∧ ∀ ty kind a n, ¬ Touches (beginStep uncachedCode) ty kind a n :=
  ⟨⟨rfl, ⟨_, rfl, rfl, rfl, rfl, rfl⟩, ⟨rfl, rfl⟩, rfl, rfl, rfl⟩,
   ⟨rfl, ⟨_, rfl, rfl, rfl, rfl, rfl⟩, ⟨rfl, rfl⟩, rfl, rfl⟩,
   ⟨rfl, ⟨_, rfl, rfl, rfl, rfl, rfl⟩, ⟨rfl, rfl⟩, ⟨_, rfl, rfl⟩⟩,
   not_touches rfl, not_touches rfl⟩

/-- `cachedCode` with a device behind its line. -/
def deviceCode (pc : Word) : State :=
  { cachedCode with pc := pc, inputs := { cachedCode.inputs with busMap := [{ base := 0x1000, size := 32, kind := .device }] } }

/-- R241: a device answers the refill of a fetch from kseg0, and a fetch from kseg1. -/
theorem witness_StepRunsDecodedInstruction_device :
    let miss := beginStep (deviceCode 0xFFFFFFFF80001000#64)
    let direct := beginStep (deviceCode 0xFFFFFFFFA0001000#64)
    (∃ seg, Fetchable miss seg 0x1000#32 true) ∧ miss.fetchProbe miss.pc 0x1000#32 = none ∧
    Touches miss .read .device (lineBase 0x1000#32) 32 ∧ ¬ Touches miss .read .error (lineBase 0x1000#32) 32 ∧
    (∃ seg, Fetchable direct seg 0x1000#32 false) ∧ Touches direct .read .device (0x1000#32).toNat 4 := by
  refine ⟨⟨_, rfl, rfl, rfl, rfl, rfl⟩, rfl, ⟨_, .head _, rfl, covers_range _ (by decide) (by decide)⟩, ?_,
    ⟨_, rfl, rfl, rfl, rfl, rfl⟩, ⟨_, .head _, rfl, covers_range _ (by decide) (by decide)⟩⟩
  rintro ⟨_, h, hk, _⟩
  cases h with
  | head => cases hk
  | tail _ h => cases h

/-- R271: both policies, CP0 usable and not. -/
theorem witness_ReservedAndZeroFieldWords :
    base.params.reservedPolicy = .raiseRI ∧ cp0Usable base.cp0.status = true ∧ cp0Usable user32.cp0.status = false ∧
    ({ base with params := { base.params with reservedPolicy := .refuse } } : State).params.reservedPolicy = .refuse ∧
    decode 0x00000060#32 = .mustBeZero := by decide

/-- R276: a word that decodes to an instruction. -/
theorem witness_EncodeDecode : decode 0x01095020#32 = .instr (.add 10 8 9) := by decide

/-- The invariant holds of a state with data, a dirty line and a program, and that state has a step. -/
theorem witness_StepKeepsInvariant :
    let s : State := { cachedCode with dDirty := [0x800], dMaybe := [0x100, 0x800], mem := writeBE dataMem 0x1000 4 0x24090001 }
    Inv s ∧ ∃ t, step s = .next t := by
  refine ⟨⟨by decide, by decide, ?_, by decide, by decide, by decide, by decide⟩, exists_next rfl⟩
  constructor <;> decide

/-- R40: an instruction that names register 0 as its destination and completes. -/
theorem witness_RegisterZero : ∃ t, exec (.addu 0 8 9) (pair 5#64 7#64) = .next t := ⟨_, rfl⟩

/-- R310, R312, R314: the largest sum and difference that fit, the first that do not, and an operand that is no word. -/
theorem witness_TrappingWordResults :
    sx32 0x7FFFFFFE#64 = true ∧ sx32 1#64 = true ∧ sx32 0xFFFFFFFF80000000#64 = true ∧
    (-(2 ^ 31) ≤ (0x7FFFFFFE#64).toInt + (1#64).toInt ∧ (0x7FFFFFFE#64).toInt + (1#64).toInt < 2 ^ 31) ∧
    ¬ (-(2 ^ 31) ≤ (0x7FFFFFFF#64).toInt + (1#64).toInt ∧ (0x7FFFFFFF#64).toInt + (1#64).toInt < 2 ^ 31) ∧
    ¬ (-(2 ^ 31) ≤ (0xFFFFFFFF80000000#64).toInt - (1#64).toInt ∧ (0xFFFFFFFF80000000#64).toInt - (1#64).toInt < 2 ^ 31) ∧
    (-(2 ^ 31) ≤ (0x7FFFFFFE#64).toInt + (1#16).toInt ∧ (0x7FFFFFFE#64).toInt + (1#16).toInt < 2 ^ 31) ∧
    ¬ (-(2 ^ 31) ≤ (0xFFFFFFFF80000000#64).toInt + (0xFFFF#16).toInt ∧
      (0xFFFFFFFF80000000#64).toInt + (0xFFFF#16).toInt < 2 ^ 31) ∧
    sx32 0x80000000#64 = false ∧ (pair 0x7FFFFFFE#64 1#64).readReg 8 = 0x7FFFFFFE#64 ∧
    (pair 0x7FFFFFFE#64 1#64).readReg 9 = 1#64 := by decide

/-- R316 to R321: 64-bit operations allowed, a sum at the boundary and one past it. -/
theorem witness_DoublewordArithmeticResults :
    ops64Allowed base.cp0.status = true ∧
    (-(2 ^ 63) ≤ (0x7FFFFFFFFFFFFFFE#64).toInt + (1#64).toInt ∧ (0x7FFFFFFFFFFFFFFE#64).toInt + (1#64).toInt < 2 ^ 63) ∧
    ¬ (-(2 ^ 63) ≤ (0x7FFFFFFFFFFFFFFF#64).toInt + (1#64).toInt ∧ (0x7FFFFFFFFFFFFFFF#64).toInt + (1#64).toInt < 2 ^ 63) ∧
    ¬ (-(2 ^ 63) ≤ (0x8000000000000000#64).toInt - (1#64).toInt ∧ (0x8000000000000000#64).toInt - (1#64).toInt < 2 ^ 63) ∧
    ¬ (-(2 ^ 63) ≤ (0x8000000000000000#64).toInt + (0xFFFF#16).toInt ∧
      (0x8000000000000000#64).toInt + (0xFFFF#16).toInt < 2 ^ 63) := by decide

/-- R351 to R355: a word and a value that is none. -/
theorem witness_WordShiftResults : sx32 0xFFFFFFFF80000000#64 = true ∧ sx32 0x80000000#64 = false := by decide

theorem witness_DoublewordShiftResults : ops64Allowed base.cp0.status = true := rfl

/-- R768: the refusing policy outside the window, and the exact policy inside it. -/
theorem hiLoFree_base :
    HiLoFree base ∧
    HiLoFree { base with
      params := { base.params with hiloHazard := .exact }
      hz := { base.hz with hiloAge := 1 } } :=
  ⟨fun _ => by decide, nofun⟩

theorem witness_MultiplyResults :
    HiLoFree (pair 0xFFFFFFFF80000000#64 0xFFFFFFFFFFFFFFFF#64) ∧ sx32 0xFFFFFFFF80000000#64 = true ∧
    sx32 0xFFFFFFFFFFFFFFFF#64 = true ∧ sx32 0x80000000#64 = false ∧ ops64Allowed base.cp0.status = true :=
  ⟨fun _ => by decide, rfl, rfl, rfl, rfl⟩

/-- R420 to R423: the most negative dividend by -1 among the operands. -/
theorem witness_DivideResults :
    HiLoFree (pair 0xFFFFFFFF80000000#64 0xFFFFFFFFFFFFFFFF#64) ∧
    sx32 ((pair 0xFFFFFFFF80000000#64 0xFFFFFFFFFFFFFFFF#64).readReg 8) = true ∧
    sx32 ((pair 0xFFFFFFFF80000000#64 0xFFFFFFFFFFFFFFFF#64).readReg 9) = true ∧
    lo32 ((pair 0xFFFFFFFF80000000#64 0xFFFFFFFFFFFFFFFF#64).readReg 9) ≠ 0#32 ∧ sx32 0x80000000#64 = false ∧
    ops64Allowed base.cp0.status = true ∧ (pair 0x8000000000000000#64 0xFFFFFFFFFFFFFFFF#64).readReg 9 ≠ 0#64 :=
  ⟨fun _ => by decide, by decide, by decide, by decide, by decide, by decide, by decide⟩

theorem witness_DivideByZeroDraws :
    HiLoFree (pair 5#64 0#64) ∧ sx32 ((pair 5#64 0#64).readReg 8) = true ∧ (pair 5#64 0#64).readReg 9 = 0#64 ∧
    ops64Allowed (pair 5#64 0#64).cp0.status = true :=
  ⟨fun _ => by decide, by decide, by decide, by decide⟩

/-- R768: outside the window, and the second instruction of it with word and doubleword operands. -/
theorem witness_HiLoMovesAndSync :
    let inWindow : State := { pair 5#64 7#64 with hz := { base.hz with hiloAge := 2 } }
    HiLoFree base ∧ inWindow.params.hiloHazard = .refuse ∧ inWindow.hz.hiloAge ≤ 2 ∧ sx32 (inWindow.readReg 8) = true ∧
    sx32 (inWindow.readReg 9) = true ∧ ops64Allowed inWindow.cp0.status = true ∧
    (∃ t, exec (.addu 8 8 9) inWindow = .next t) ∧ (∃ t, exec (.syscall 0) inWindow = .next t) :=
  ⟨hiLoFree_base.1, rfl, by decide, by decide, by decide, rfl, ⟨_, rfl⟩, ⟨_, rfl⟩⟩

/-- R275: each mode, with and without its 64-bit flag. -/
theorem witness_Ops64NotAllowed :
    kernelMode 0#32 = true ∧ userMode 0x10#32 = true ∧ supervisorMode 0x08#32 = true ∧
    ops64Allowed user32.cp0.status = false ∧ cp0Usable user32.cp0.status = false ∧
    ops64Allowed (withStatus 0x10000010#32).cp0.status = false ∧ cp0Usable (withStatus 0x10000010#32).cp0.status = true := by
  decide

/-- R440: no branch in flight; the register pairs of JALR and of the linking branches. -/
theorem witness_JumpAndLinkResults :
    base.delay = none ∧ (9#5 : RegNo) ≠ 8#5 ∧ (8#5 : RegNo) = 8#5 ∧ (8#5 : RegNo) ≠ 31#5 ∧ (31#5 : RegNo) = 31#5 := by decide

theorem witness_ConditionalBranchResults : base.delay = none := rfl

theorem witness_BranchInDelaySlotRefused :
    (inSlot false).delay = some { next := 0xFFFFFFFF80001008#64, killed := false } ∧ (9#5 : RegNo) ≠ 8#5 ∧
    (8#5 : RegNo) ≠ 31#5 ∧ cp0Usable (inSlot false).cp0.status = true ∧ cp1State.cp0.status.getLsbD 29 = true ∧
    cp1State.params.cp1Present = true ∧
    ({ cp1State with delay := (inSlot false).delay } : State).delay = some { next := 0xFFFFFFFF80001008#64, killed := false } := by
  decide

/-- R443, R445: a killed slot whose fetch raises, and one whose fetch gives a word. -/
theorem witness_KilledDelaySlot :
    let code : State := { inSlot true with mem := writeBE [] 0x1000 4 0x8D090002 }
    let odd : State := { inSlot true with pc := 0xFFFFFFFF80001002#64 }
    (odd.coldReset = false ∧ (beginStep odd).killed = true ∧ ∃ e, fetch (beginStep odd) = .raise e) ∧
    (code.coldReset = false ∧ (beginStep code).killed = true ∧
      ∃ w f, fetch (beginStep code) = .word w f ∧ intPending f.cp0 = false) :=
  ⟨⟨rfl, rfl, _, rfl⟩, rfl, rfl, _, _, rfl, rfl⟩

/-- R542: LL, ERET and another instruction complete. -/
theorem witness_ReservationRule :
    (∃ t, exec (.ll 9 0 8) dataState = .next t) ∧ (∃ t, exec .eret (erlState 2#32) = .next t) ∧
    ∃ t, exec (.addu 0 8 9) base = .next t :=
  ⟨⟨_, rfl⟩, ⟨_, rfl⟩, ⟨_, rfl⟩⟩

/-- R575, R576: CP0 usable, 64-bit operations allowed, both kinds of policy of Random. -/
theorem witness_MoveFromCp0Results :
    cp0Usable base.cp0.status = true ∧ ops64Allowed base.cp0.status = true ∧ base.params.randomPolicy = .draw ∧
    base.cp0.wired.toNat ≤ 31 ∧ (onTlbwr 2 31).params.randomPolicy ≠ .draw := by decide

theorem witness_MoveToCp0Results : cp0Usable base.cp0.status = true ∧ ops64Allowed base.cp0.status = true := by decide

theorem witness_Cp0Unusable : cp0Usable user32.cp0.status = false := rfl

/-- R600: ERL set, and ERL clear. -/
theorem witness_EretResults :
    cp0Usable (erlState 6#32).cp0.status = true ∧ (erlState 6#32).delay = none ∧ stERL (erlState 6#32).cp0.status = true ∧
    cp0Usable (erlState 2#32).cp0.status = true ∧ stERL (erlState 2#32).cp0.status = false := by decide

/-- R607: a condition that holds and one that does not, for a signed and an unsigned compare. -/
theorem witness_SystemCallAndTrapResults :
    ((pair 3#64 3#64).readReg 9).toInt ≤ ((pair 3#64 3#64).readReg 8).toInt ∧
    ¬ ((pair 3#64 3#64).readReg 8).toInt < ((pair 3#64 3#64).readReg 9).toInt ∧
    ((pair 0#64 0xFFFFFFFFFFFFFFFF#64).readReg 8).toNat < ((pair 0#64 0xFFFFFFFFFFFFFFFF#64).readReg 9).toNat ∧
    ¬ ((pair 5#64 0#64).readReg 8).toInt = (0xFFFF#16).toInt := by decide

/-- R594, R595: index 31 and 32, the quirk, Wired 31 and 32, the drawing policy and the countdown. -/
theorem witness_TlbWriteResults :
    let quirk : State := { base with params := { base.params with noopQuirks := true } }
    let wired := fun w : Word32 => ({ base with cp0 := { base.cp0 with wired := w } } : State)
    cp0Usable base.cp0.status = true ∧ base.params.noopQuirks = false ∧
    (tlbSetup 31 0 0 0 0).cp0.index.toNat % 64 < 32 ∧ 32 ≤ (tlbSetup 32 0 0 0 0).cp0.index.toNat % 64 ∧
    quirk.params.noopQuirks = true ∧ 31 < (wired 32#32).cp0.wired.toNat ∧ (wired 31#32).cp0.wired.toNat ≤ 31 ∧
    (wired 31#32).params.randomPolicy = .draw ∧ (onTlbwr 2 31).params.randomPolicy ≠ .draw ∧
    cp0Usable (onTlbwr 2 31).cp0.status = true ∧ (onTlbwr 2 31).cp0.wired.toNat ≤ (onTlbwr 2 31).cp0.random.toNat ∧
    (onTlbwr 2 31).cp0.random.toNat ≤ 31 := by decide

/-- R204: the same under `per_cycle`. -/
theorem witness_TlbWriteResults_perCycle :
    let s : State := { onTlbwr 2 31 with params := { Params.specDefault with randomPolicy := .perCycle } }
    cp0Usable s.cp0.status = true ∧ s.cp0.wired.toNat ≤ 31 ∧ s.params.randomPolicy ≠ .draw ∧
    s.params.randomPolicy = .perCycle ∧ s.cp0.wired.toNat ≤ s.cp0.random.toNat ∧ s.cp0.random.toNat ≤ 31 := by decide

/-- R191: T0 of the vectors at index 5 with EntryLo1 and PageMask as given. -/
def t0 (pageMask : Word32) (lo1 : Word) : State := tlbSetup 5 pageMask 0x2000 0x401F lo1

/-- R191, R192: with no other entry matching, an address in the odd page and one outside the pair, under another ASID with
the global bit; a page not valid, one not dirty, one beyond the physical space, and an illegal mask. -/
theorem witness_TlbRoundTrip :
    let e := fun s : State => tlbEntryFromCp0 s.cp0
    let hits := fun (x : TlbEntry) (va : Word) =>
      x.vpn2 &&& ~~~(x.mask.setWidth 27) = va.extractLsb' 13 27 &&& ~~~(x.mask.setWidth 27) ∧
      x.r = va.extractLsb' 62 2 ∧ (x.g = true ∨ x.asid = (6#64).extractLsb' 0 8)
    let s := t0 0 0x405F
    cp0Usable s.cp0.status = true ∧ s.params.noopQuirks = false ∧ s.cp0.index.toNat % 64 = 5 ∧
    (∃ t, exec .tlbwi s = .next t ∧ segMode t.cp0.status = some .k32 ∧
      (∀ j : Fin 32, j.val ≠ 5 → ¬ hits t.tlb[j] 0x3ABC#64) ∧ ∀ j : Fin 32, j.val ≠ 5 → ¬ hits t.tlb[j] 0x4000#64) ∧
    (∃ seg, resolveIn .k32 0x3ABC#64 = some seg ∧ resolveIn .k32 0x4000#64 = some seg ∧ seg.mapped = true) ∧
    erlUpper .k32 0x3ABC#64 = false ∧ erlUpper .k32 0x4000#64 = false ∧ hits (e s) 0x3ABC#64 ∧ ¬ hits (e s) 0x4000#64 ∧
    legalMask (e s).mask = true ∧ (0x3ABC#64).getLsbD (pageBits (e s).mask) = true ∧ (e s).odd.v = true ∧ (e s).odd.d = true ∧
    (e s).odd.pfn.toNat < 2 ^ 20 ∧ (e (t0 0 0x405D)).odd.v = false ∧
    (e (t0 0 0x405B)).odd.v = true ∧ (e (t0 0 0x405B)).odd.d = false ∧ 2 ^ 20 ≤ (e (t0 0 0x400005F)).odd.pfn.toNat ∧
    (e (t0 0 0x400005F)).odd.v = true ∧ (e (t0 0 0x400005F)).odd.d = true ∧ legalMask (e (t0 0x2000 0x405F)).mask = false ∧
    hits (e (t0 0x2000 0x405F)) 0x3ABC#64 ∧ (6#64).extractLsb' 0 8 ≠ s.cp0.entryHi.extractLsb' 0 8 :=
  ⟨rfl, rfl, rfl, ⟨_, rfl, by decide⟩, ⟨_, rfl, rfl, rfl⟩, by decide⟩

/-- R193: another entry matches as well, under each policy. -/
theorem witness_TlbRoundTrip_matches :
    let also := fun policy : MultiMatch =>
      ({ t0 0 0x405F with
          tlb := tlbPowerOn.set 7 (tlbEntryFromCp0 (t0 0 0x405F).cp0)
          params := { base.params with tlbMultimatch := policy } } : State)
    let hits := fun x : TlbEntry =>
      x.vpn2 &&& ~~~(x.mask.setWidth 27) = (0x3ABC#64).extractLsb' 13 27 &&& ~~~(x.mask.setWidth 27) ∧
      x.r = (0x3ABC#64).extractLsb' 62 2 ∧ (x.g = true ∨ x.asid = (6#64).extractLsb' 0 8)
    ∀ policy ∈ [MultiMatch.refuse, .mostRecent, .lowestIndex], (also policy).params.tlbMultimatch = policy ∧
      hits (tlbEntryFromCp0 (also policy).cp0) ∧ ∃ j : Fin 32, j.val ≠ 5 ∧ hits (also policy).tlb[j] := by decide

/-- Entries 9 and 20 match EntryHi, the entry 20 written after the entry 9 if `written`, else neither (R193). -/
def twoMatches (policy : MultiMatch) (written : Bool) : State :=
  let s := tlbSetup 9 0 0x2000 0 0
  let e := tlbEntryFromCp0 s.cp0
  { s with
    tlb := (tlbPowerOn.set 9 e).set 20 e
    recency := if written then [3, 20, 9] else [3]
    params := { s.params with tlbMultimatch := policy } }

/-- R193: two entries match, under each policy; which is the lowest; which was written last, and none written. -/
theorem witness_TlbReadAndProbeResults_several :
    let hits := fun (s : State) (j : Fin 32) => (s.tlb[j]).matchesPage (s.cp0.entryHi.extractLsb' 13 27)
      (s.cp0.entryHi.extractLsb' 62 2) (s.cp0.entryHi.extractLsb' 0 8)
    ∀ policy ∈ [MultiMatch.refuse, .mostRecent, .lowestIndex], ∀ written : Bool,
      let s := twoMatches policy written
      s.params.tlbMultimatch = policy ∧ cp0Usable s.cp0.status = true ∧ hits s 9 = true ∧ hits s 20 = true ∧
      (∀ j : Fin 32, j < 9 → hits s j = false) ∧ s.params.noopQuirks = false ∧ s.cp0.index.toNat % 64 < 32 ∧
      (written = true → s.recency = [3] ++ 20 :: [9] ∧ ∀ j : Fin 32, j.val ∈ [3] → hits s j = false) ∧
      (written = false → ∀ j : Fin 32, hits s j = true → j.val ∉ s.recency) := by decide

/-- R193, R197: TLBP with two matches under each policy. -/
theorem test_tlbp_several :
    let probe := fun (policy : MultiMatch) (written : Bool) =>
      (after .tlbp (twoMatches policy written)).map (fun t => t.cp0.index)
    exec .tlbp (twoMatches .refuse true) = .refused .tlbMultipleMatch ∧ probe .lowestIndex true = some 9 ∧
    probe .mostRecent true = some 20 ∧ probe .mostRecent false = some 9 :=
  ⟨rfl, rfl, rfl, rfl⟩

/-- R593, R596: index 31 and 32, an EntryHi one entry matches, one none matches. -/
theorem witness_TlbReadAndProbeResults :
    let hits := fun (s : State) (j : Fin 32) => (s.tlb[j]).matchesPage (s.cp0.entryHi.extractLsb' 13 27)
      (s.cp0.entryHi.extractLsb' 62 2) (s.cp0.entryHi.extractLsb' 0 8)
    let second := tlbSetup 0 0 0xC00000FF80002000 0 0
    cp0Usable (tlbSetup 32 0 0x2000 0 0).cp0.status = true ∧ 32 ≤ (tlbSetup 32 0 0x2000 0 0).cp0.index.toNat % 64 ∧
    (tlbSetup 31 0 0x2000 0 0).cp0.index.toNat % 64 = 31 ∧ hits second 1 = true ∧
    (∀ j : Fin 32, j ≠ 1 → hits second j = false) ∧
    (∀ j : Fin 32, hits (tlbSetup 0 0 0x40000 0 0) j = false) := by decide

theorem witness_InstructionCacheDiscipline :
    (0x400#32).extractLsb' 12 20 ≠ (0x4400#32).extractLsb' 12 20 ∧
    (0xFFFFFFFF80000420#64).extractLsb' 5 9 ≠ (0xFFFFFFFF80000400#64).extractLsb' 5 9 := by decide

/-- R621: the address translates; a dirty line and none; a hit and a miss; a line the data cache may hold and none; a bus
error and none. -/
theorem witness_InstructionCacheOperations :
    let s := filled 0 0xFFFFFFFF80000400#64
    let dirty : State := { s with dDirty := [0x410], dMaybe := [0x410] }
    let failing : State := { s with inputs := { s.inputs with busMap := [{ base := 0x410, size := 4, kind := .error }] } }
    let va := s.readReg 8 + BitVec.ofInt 64 (0#16).toInt
    cp0Usable s.cp0.status = true ∧ s.params.noopQuirks = false ∧
    (∃ seg, translate s.transCtx va .load = .ok seg 0x400#32 true ∧ translate dirty.transCtx va .load = .ok seg 0x400#32 true) ∧
    anyLine dirty.dDirty (lineBase 0x400#32) 32 = true ∧ anyLine s.dDirty (lineBase 0x400#32) 32 = false ∧
    (∃ l, s.icProbe va 0x400#32 = some l) ∧ base.icProbe va 0x400#32 = none ∧
    anyLine dirty.dMaybe (lineBase 0x400#32) 32 = true ∧ anyLine s.dMaybe (lineBase 0x400#32) 32 = false ∧
    Memory.wf s.mem = true ∧ (∀ ty, ¬ Touches s ty .error (lineBase 0x400#32) 32) ∧
    ∀ ty, Touches failing ty .error (lineBase 0x400#32) 32 :=
  ⟨rfl, rfl, ⟨_, rfl, rfl⟩, rfl, rfl, ⟨_, rfl⟩, rfl, rfl, rfl, by decide, fun _ => not_touches rfl _ _ _ _,
   fun _ => ⟨_, .head _, rfl, covers_range _ (by decide) (by decide)⟩⟩

/-- R622: a dirty line at the index and none, TagLo with and without a state, a secondary-cache code. -/
theorem witness_DataCacheOperations :
    let va := dirtyState.readReg 8 + BitVec.ofInt 64 (0#16).toInt
    cp0Usable dirtyState.cp0.status = true ∧ dirtyState.params.noopQuirks = false ∧
    (∃ seg, translate dirtyState.transCtx va .load = .ok seg 0x800#32 true) ∧
    dirtyState.cp0.tagLo.extractLsb' 6 2 = 0#2 ∧ (0x40#32).extractLsb' 6 2 ≠ 0#2 ∧
    (∃ l ∈ dirtyState.dDirty, l / 16 % 512 = va.toNat / 16 % 512) ∧ base.dDirty = [] ∧ 0x800 ∈ dirtyState.dDirty ∧
    0x800 ∉ base.dDirty ∧ (0x02#5).extractLsb' 1 1 = 1#1 ∧ (0x03#5).extractLsb' 1 1 = 1#1 :=
  ⟨by decide, by decide, ⟨_, rfl⟩, by decide, by decide, by decide, by decide, by decide, by decide, by decide, by decide⟩

/-- R640, R641: CU1 and CU2 clear and set, no unit. -/
theorem witness_CoprocessorUnusable :
    base.cp0.status.getLsbD 29 = false ∧ (withStatus 0x200000E0#32).cp0.status.getLsbD 29 = true ∧
    (withStatus 0x200000E0#32).params.cp1Present = false ∧ base.cp0.status.getLsbD 30 = false ∧
    (withStatus 0x400000E0#32).cp0.status.getLsbD 30 = true := by decide

theorem accessible_cp1 (op : MemOp) : Accessible op 0xFFFFFFFF80000100#64 cp1State 0x100#32 true where
  toUnhindered := unhindered_of ⟨_, by cases op <;> rfl⟩ rfl rfl (fun _ => rfl) rfl rfl rfl
  allowed := fun _ => rfl
  aligned := by cases op <;> rfl

theorem witness_Cp1LoadsAndStores :
    cp1State.cp0.status.getLsbD 29 = true ∧ cp1State.params.cp1Present = true ∧ Memory.wf cp1State.mem = true ∧
    cp1State.readReg 8 + BitVec.ofInt 64 (0#16).toInt = 0xFFFFFFFF80000100#64 := by decide

/-- R640: a unit attached; words of the unit at sub-opcodes 3, 16 and 8, the last with a condition code above 3. -/
theorem witness_Cp1MovesAndBranches :
    cp1State.cp0.status.getLsbD 29 = true ∧ cp1State.params.cp1Present = true ∧ cp1State.delay = none ∧
    (0x0600000#26).extractLsb' 21 5 ∉ [0#5, 1#5, 2#5, 4#5, 5#5, 6#5] ∧
    (0x2000000#26).extractLsb' 21 5 ∉ [0#5, 1#5, 2#5, 4#5, 5#5, 6#5] ∧ (0x1040000#26).extractLsb' 21 5 = 8#5 ∧
    4 ≤ ((0x1040000#26).extractLsb' 16 5).toNat :=
  ⟨rfl, rfl, rfl, by decide⟩

/-- R670: EXL set and clear, in and outside a delay slot. -/
theorem witness_ExceptionEntry :
    stEXL inHandler.cp0.status = true ∧ stEXL base.cp0.status = false ∧ base.delay = none ∧
    stEXL (inSlot false).cp0.status = false ∧
    (inSlot false).delay = some { next := 0xFFFFFFFF80001008#64, killed := false } := by decide

/-- R672: EXL set and clear, and translations that raise a refill in both widths. -/
theorem witness_ExceptionVectors :
    stEXL inHandler.cp0.status = true ∧ stEXL base.cp0.status = false ∧
    translate (withStatus 0#32).transCtx 0x40000#64 .load = .raise (.tlbRefill .load 0x40000#64 false) ∧
    translate base.transCtx 0x40000#64 .load = .raise (.tlbRefill .load 0x40000#64 true) := by decide

/-- R677: an exception of each group. -/
theorem witness_RecordedValues :
    Exc.tlbModified 0x4ABC#64 = .tlbModified 0x4ABC#64 ∧ Exc.addrError .load 2#64 = .addrError .load 2#64 ∧
    ∀ va, Exc.syscall ≠ .tlbModified va ∧ (∀ k m, Exc.syscall ≠ .tlbRefill k va m) ∧
      (∀ k, Exc.syscall ≠ .tlbInvalid k va) ∧ ∀ k, Exc.syscall ≠ .addrError k va :=
  ⟨rfl, rfl, fun _ => ⟨nofun, nofun, nofun, nofun⟩⟩

/-- A state with software interrupt 0 enabled and pending. -/
def pendingCode : State := { cachedCode with cp0 := { cachedCode.cp0 with status := 0x1E1#32, cause := 0x100#32 } }

theorem pendingCode_cause : (beginStep pendingCode).cp0.cause.getLsbD 8 = true := by
  show (setLines 0#5 (if _ ≤ _ then pendingCode.cp0.cause ||| 0x00008000#32 else pendingCode.cp0.cause)).getLsbD 8 = true
  split <;> decide

/-- R691: a fetch that raises, one that gives a word with a software interrupt enabled and pending, and one with none. -/
theorem witness_InterruptTaken :
    let odd : State := withPc 0xFFFFFFFF80001002#64
    let b := beginStep pendingCode
    (odd.coldReset = false ∧ ∃ e, fetch (beginStep odd) = .raise e) ∧
    (pendingCode.coldReset = false ∧ (∃ w f, fetch b = .word w f) ∧ b.cp0.status.getLsbD 0 = true ∧
      b.cp0.status.getLsbD 1 = false ∧ b.cp0.status.getLsbD 2 = false ∧
      ∃ n : Fin 8, b.cp0.cause.getLsbD (8 + n.val) = true ∧ b.cp0.status.getLsbD (8 + n.val) = true) ∧
    (∃ w f, fetch (beginStep cachedCode) = .word w f) ∧ (beginStep cachedCode).cp0.status.getLsbD 0 = false :=
  ⟨⟨rfl, _, rfl⟩, ⟨rfl, ⟨_, _, rfl⟩, rfl, rfl, rfl, 0, pendingCode_cause, rfl⟩, ⟨_, _, rfl⟩, rfl⟩

/-- R692, R204: the level of the lines given, Wired and both kinds of policy of Random. -/
theorem witness_TimerAndLines :
    let perCycle : State := { base with params := { base.params with randomPolicy := .perCycle } }
    base.inputs.extInt = 0#5 :: [] ∧ base.params.randomPolicy ≠ .perCycle ∧ perCycle.params.randomPolicy = .perCycle ∧
    perCycle.cp0.wired.toNat ≤ 31 := by decide

/-- R154: an address in an unmapped segment of each kind, and the kernel mode tables. -/
theorem witness_UnmappedAddresses :
    (∃ g, resolveIn .k64 0xFFFFFFFF80001234#64 = some g ∧ g.mapped = false) ∧
    (∃ g, resolveIn .k64 0x9000000012345678#64 = some g ∧ g.mapped = false) ∧
    erlUpper .k64 0xFFFFFFFF80001234#64 = false ∧ segMode 0#32 = some .k32 ∧ segMode 0xE0#32 = some .k64 ∧
    segMode 4#32 = some .k32Erl ∧ segMode 0xE4#32 = some .k64Erl ∧
    0xFFFFFFFF80000000 ≤ (0xFFFFFFFF80001234#64).toNat ∧ (0x9000000012345678#64).extractLsb' 62 2 = 2#2 :=
  ⟨⟨_, rfl, rfl⟩, ⟨_, rfl, rfl⟩, by decide, by decide, by decide, by decide, by decide, by decide, by decide⟩

theorem witness_UserCannotReachKernel :
    userMode 0x10#32 = true ∧ stUX 0x10#32 = false ∧ userMode 0x30#32 = true ∧ supervisorMode 0x08#32 = true ∧
    2 ^ 63 ≤ (0xFFFFFFFF80000000#64).toNat ∧
    ¬ (0xFFFFFFFFC0000000 ≤ (0xFFFFFFFF80000000#64).toNat ∧ (0xFFFFFFFF80000000#64).toNat < 0xFFFFFFFFE0000000) := by
  decide

/-- R570: a user program on a page of the TLB takes a step, and one that is refused its fetch takes an exception. -/
theorem witness_UnprivilegedStepKeepsSystemState :
    userCode.coldReset = false ∧ cp0Usable userCode.cp0.status = false ∧ (∃ t, step userCode = .next t) ∧
    (nextOf (step userCode)).map (·.readReg 9) = some 1#64 ∧ ∃ t, step user32 = .next t :=
  ⟨rfl, rfl, exists_next (by decide), by decide, exists_next (by decide)⟩

/-- R773: three stall cycles to go. -/
theorem witness_StallCycle :
    let s : State := { base with pipe := { Pipe.bubbles with cyclesToStall := 3 } }
    s.coldReset = false ∧ 0 < s.pipe.cyclesToStall := by decide

/-- R224, R810: a request for the second stall cycle is performed there and not before, and only where the tag matches. -/
theorem test_invalidate_at_its_cycle :
    let filledLine := filled 0 0xFFFFFFFF80000400#64
    let s := fun pa : PAddr => ({ filledLine with
      pipe := { Pipe.bubbles with cyclesToStall := 3 }
      inputs := { filledLine.inputs with inval := [[], [(0xFFFFFFFF80000400#64, pa)]] } } : State)
    let valid := fun t : State => (t.icLine 0xFFFFFFFF80000400#64).valid
    let later := fun t : State => nextOf (cycle t)
    (later (s 0x400#32)).map valid = some true ∧ ((later (s 0x400#32)).bind later).map valid = some false ∧
    ((later (s 0x5400#32)).bind later).map valid = some true :=
  ⟨rfl, rfl, rfl⟩

/-- R762: the bubbles of reset, and a faulted slot between IC and RF. -/
theorem witness_FaultedSlotPropagates :
    let faulted : State :=
      { base with
        pipe := { Pipe.bubbles with
          icrf := { Pipe.bubbles.icrf with hd := { Header.bubble with faultId := .iade } } } }
    base.pipe.squash = false ∧ base.pipe.exdc.hd.live = false ∧ base.pipe.rfex.hd.live = false ∧
    base.pipe.icrf.hd.live = false ∧ base.pipe.holdFront = false ∧ base.pipe.exEret = false ∧
    base.pipe.icrf.hd.faulted = false ∧ base.pipe.dcwb.hd.live = false ∧ base.pipe.dcwb.hd.faulted = false ∧
    faulted.pipe.squash = false ∧ faulted.pipe.icrf.hd.live = false ∧ faulted.pipe.icrf.hd.faulted = true ∧
    faulted.pipe.holdFront = false ∧ faulted.pipe.exEret = false := by decide

/-- R140, R141, R153, R160: a misaligned pc, the mode without a meaning, the upper part of xkuseg with ERL = 1, and a translation that
raises. -/
theorem witness_FetchOutcomes :
    let at3 : State := { withStatus 0x18#32 with pc := 0x2ABC#64 }
    let upper : State := { withStatus 0xE4#32 with pc := 0x80000000#64 }
    (withPc 0xFFFFFFFF80001002#64).pc.toNat % 4 ≠ 0 ∧ base.pc.toNat % 4 = 0 ∧
    (at3.pc.toNat % 4 = 0 ∧ at3.cp0.status.extractLsb' 3 2 = 3#2 ∧ at3.cp0.status.getLsbD 1 = false ∧
      at3.cp0.status.getLsbD 2 = false) ∧
    (upper.cp0.status.getLsbD 2 = true ∧ upper.cp0.status.getLsbD 7 = true ∧ 2 ^ 31 ≤ upper.pc.toNat ∧
      upper.pc.toNat < 2 ^ 40) ∧
    (∃ e, translate { withStatus 0#32 with pc := 0x4000#64 }.transCtx 0x4000#64 .fetch = .raise e) ∧
    cp0HazardAt base.hz 0x4000#64 = false ∧ ∃ w f, fetch cachedCode = .word w f :=
  ⟨by decide, by decide, by decide, by decide, ⟨_, rfl⟩, rfl, ⟨_, _, rfl⟩⟩

/-- R140, R141, R252, R232, R238: the byte orders, a store over the word and none, a dirty line and none, a hit and a miss, a
bus error and none, cached and uncached. -/
theorem witness_FetchOutcomes_bus :
    let little : State := { base with cp0 := { base.cp0 with config := 0x70066463#32 } }
    let reversed : State := { userCode with cp0 := { userCode.cp0 with status := 0x02000010#32 } }
    let stored : State := { base with hz := { base.hz with stores := [{ left := 1, addr := 0x1003, size := 1 }] } }
    let beside : State := { base with hz := { base.hz with stores := [{ left := 1, addr := 0x1004, size := 4 }] } }
    let dirty : State := { base with dDirty := [0x1000], dMaybe := [0x1000] }
    let hit : State := cachedCode.icFill cachedCode.pc 0x1000#32
    let failing : State := { base with inputs := { base.inputs with busMap := [{ base := 0x1000, size := 4, kind := .error }] } }
    (∃ seg, translate little.transCtx little.pc .fetch = .ok seg 0x1000#32 true) ∧ little.cp0.config.getLsbD 15 = false ∧
    (∃ seg, translate reversed.transCtx reversed.pc .fetch = .ok seg 0x100ABC#32 true) ∧
    (userMode reversed.cp0.status && reversed.cp0.status.getLsbD 25) = true ∧
    (∃ seg, translate base.transCtx base.pc .fetch = .ok seg 0x1000#32 true) ∧
    (∃ seg, translate base.transCtx 0xFFFFFFFFA0001000#64 .fetch = .ok seg 0x1000#32 false) ∧
    (∃ h ∈ stored.hz.stores, h.addr < 0x1004 ∧ 0x1000 < h.addr + h.size) ∧
    (∀ h ∈ beside.hz.stores, ¬ (h.addr < 0x1004 ∧ 0x1000 < h.addr + h.size)) ∧
    (∃ l ∈ dirty.dDirty, l < 0x1004 ∧ 0x1000 < l + 16) ∧ base.dDirty = [] ∧
    (∃ l ∈ dirty.dDirty, l < lineBase 0x1000#32 + 32 ∧ lineBase 0x1000#32 < l + 16) ∧
    base.fetchProbe base.pc 0x1000#32 = none ∧ (∃ l, hit.fetchProbe hit.pc 0x1000#32 = some l) ∧
    Touches failing .read .error (0x1000#32).toNat 4 ∧ Touches failing .read .error (lineBase 0x1000#32) 32 ∧
    ∀ a n, ¬ Touches base .read .error a n :=
  ⟨⟨_, rfl⟩, rfl, ⟨_, rfl⟩, rfl, ⟨_, rfl⟩, ⟨_, rfl⟩, by decide, by decide, by decide, rfl, by decide, rfl, ⟨_, rfl⟩,
   ⟨_, .head _, rfl, covers_range _ (by decide) (by decide)⟩, ⟨_, .head _, rfl, covers_range _ (by decide) (by decide)⟩,
   not_touches rfl _ _⟩

/-- R800: a TLBWI that maps the page of the pc, seen by the third fetch and not by the fourth; a window of R252 with an
instruction left. -/
theorem witness_FetchOutcomes_hazard :
    let s := t0 0 0x405F
    cp0Usable s.cp0.status = true ∧ ops64Allowed s.cp0.status = true ∧ s.params.noopQuirks = false ∧ s.hz.cp0 = [] ∧
    (∃ t, exec .tlbwi s = .next t ∧ (∀ r, translate t.transCtx 0x3ABC#64 .fetch ≠ .stop r) ∧
      translate s.transCtx 0x3ABC#64 .fetch ≠ translate t.transCtx 0x3ABC#64 .fetch) ∧
    (0x3ABC#64).toNat % 4 = 0 ∧ 2 < s.params.cp0HazardWindow ∧ s.params.cp0HazardWindow ≤ 3 :=
  ⟨rfl, rfl, rfl, rfl, ⟨_, rfl, (fun r h => by cases h), by decide⟩, by decide, by decide, by decide⟩

end Sys2Proof.Tests
end

section
/-! PROOFS. Register 0 (10_state.md R40). What an instruction does to the general registers, said once for all: its EX stage
leaves them alone, DC leaves them alone, and WB writes one of them, so that every instruction is one `writeReg` on the registers
(R12, R40). -/

namespace Sys2Proof.Machine

/-! ## One register write -/

/-- A write to register 0 is discarded (R40). -/
@[simp] theorem writeReg_zero (s : State) (v : Word) : s.writeReg 0#5 v = s := by simp [State.writeReg]

/-- The cell of register 0 is never written (R40). -/
theorem writeReg_gpr_zero (s : State) (r : RegNo) (v : Word) : (s.writeReg r v).gpr[0] = s.gpr[0] := by
  unfold State.writeReg
  split
  · rfl
  · next hr =>
    have hne : r.toNat ≠ 0 := fun he => hr (BitVec.eq_of_toNat_eq he)
    simp [hne]

/-- What a write leaves in the registers depends on the registers alone. -/
theorem writeReg_gpr_congr {s t : State} (h : t.gpr = s.gpr) (r : RegNo) (v : Word) :
    (t.writeReg r v).gpr = (s.writeReg r v).gpr := by
  unfold State.writeReg
  split
  · exact h
  · simp only [h]

/-- WB writes its result to its destination; the LL marker and ERET touch no general register. -/
@[simp] theorem writeBack_gpr (d : RegNo) (v : Word) (l : Option PAddr) (e : Bool) (s : State) :
    (writeBack d v l e s).gpr = (s.writeReg d v).gpr := by
  cases l <;> cases e <;> rfl

/-! ## DC leaves the registers alone -/

/-- Two states with the same general registers. -/
def SameGpr (s t : State) : Prop := t.gpr = s.gpr

theorem sameGpr_performRequest {rq : MemReq} {rt : RegNo} {s t : State} {v : Word}
    (h : performRequest rq rt s = .done v t) : SameGpr s t := by
  unfold performRequest at h
  dsimp only at h
  split at h
  · cases h
    exact book_gpr ..
  · split at h <;> cases h <;> exact book_gpr ..

theorem sameGpr_requestInDc {rq : MemReq} {rt : RegNo} {s t : State} {v : Word}
    (h : requestInDc rq rt s = .done v t) : SameGpr s t := by
  unfold requestInDc at h
  split at h
  · cases h
  · split at h
    · cases h
    · exact sameGpr_performRequest h

theorem sameGpr_dcAccess {rq : MemReq} {rt : RegNo} {s t : State} {v : Word}
    (h : dcAccess rq rt s = .done v t) : SameGpr s t := by
  unfold dcAccess at h
  split at h
  · split at h
    · split at h
      · exact sameGpr_requestInDc h
      · cases h
      · cases h
    · cases h
      rfl
  · exact sameGpr_requestInDc h

/-! ## What EX leaves

A property of the state that EX passes on, with an exception or to the later stages, goes through the shared operations of
EX: those that change no state need it of the state they are given. -/

/-- The state EX passes on has the property; a stop passes on none. -/
def ExResult.Leaves (P : State → Prop) : ExResult → Prop
  | .stop _ => True
  | .raise _ st => P st
  | .ok o => P o.st

section
variable {P : State → Prop} {s : State}

theorem leaves_ite {c : Prop} [Decidable c] {k l : ExResult} (hk : k.Leaves P) (hl : l.Leaves P) :
    (if c then k else l).Leaves P := by
  split
  · exact hk
  · exact hl

theorem leaves_resultFor (rd : RegNo) (v : Word) (h : P s) : (resultFor rd v s).Leaves P := h

theorem leaves_withOps64 {k : ExResult} (h : P s) (hk : k.Leaves P) : (withOps64 s k).Leaves P := leaves_ite hk h

theorem leaves_withCp0 {k : ExResult} (h : P s) (hk : k.Leaves P) : (withCp0 s k).Leaves P := leaves_ite hk h

theorem leaves_withCp1 {k : ExResult} (h : P s) (hk : k.Leaves P) : (withCp1 s k).Leaves P :=
  leaves_ite h (leaves_ite trivial hk)

theorem leaves_withWords (rs rt : RegNo) {k : ExResult} (hk : k.Leaves P) : (withWords rs rt s k).Leaves P :=
  leaves_ite hk trivial

theorem leaves_trapping32 (rd : RegNo) (a b : Word) (t : Int) (h : P s) : (trapping32 rd a b t s).Leaves P :=
  leaves_ite trivial (leaves_ite h h)

theorem leaves_trapping64 (rd : RegNo) (t : Int) (h : P s) : (trapping64 rd t s).Leaves P := leaves_ite h h

theorem leaves_shiftRight32 (rd : RegNo) (v : Word) (r : Word32) (h : P s) : (shiftRight32 rd v r s).Leaves P :=
  leaves_ite h trivial

theorem leaves_trapIf (c : Bool) (h : P s) : (trapIf c s).Leaves P := leaves_ite h h

theorem leaves_noCop2 (h : P s) : (noCop2 s).Leaves P := leaves_ite h h

theorem leaves_branchOut (taken likely : Bool) (target : Word) (link : RegNo) (h : P s) :
    (branchOut s taken likely target link).Leaves P := leaves_ite trivial h

theorem leaves_linkBranch (rs : RegNo) (taken likely : Bool) (imm : BitVec 16) (h : P s) :
    (linkBranch rs taken likely imm s).Leaves P := leaves_ite trivial (leaves_branchOut _ _ _ _ h)

theorem leaves_memAccess (op : MemOp) (rt : RegNo) (va data old : Word) (h : P s) :
    (memAccess op rt va data old s).Leaves P := by
  unfold memAccess
  split
  · exact h
  · split
    · trivial
    · exact h
    · split
      · trivial
      · refine leaves_ite (k := .ok _) h ?_
        split
        · exact h
        · exact h
        · trivial

theorem leaves_loadStore (op : MemOp) (rt : RegNo) (offset : BitVec 16) (base : RegNo) (h : P s) :
    (loadStore op rt offset base s).Leaves P :=
  leaves_ite (leaves_withOps64 h (leaves_memAccess _ _ _ _ _ h)) (leaves_memAccess _ _ _ _ _ h)

end

/-! ## EX leaves the registers alone -/

section
variable (s : State)

theorem sameGpr_writeHiLo (hi lo : Word) : (writeHiLo hi lo s).Leaves (SameGpr s) := leaves_ite trivial rfl

theorem sameGpr_divideByZero : (divideByZero s).Leaves (SameGpr s) := sameGpr_writeHiLo (s.drew 2) _ _

theorem sameGpr_eretOut : (eretOut s).Leaves (SameGpr s) := leaves_ite trivial rfl

theorem sameGpr_moveToCp0 (n : RegNo) (v : Word) : (moveToCp0 n v s).Leaves (SameGpr s) := by
  unfold moveToCp0 ExResult.Leaves SameGpr
  dsimp only
  split <;> split <;> rfl

theorem sameGpr_tlbReadOut : (tlbReadOut s).Leaves (SameGpr s) := by
  unfold tlbReadOut
  split
  · exact tlbRead_gpr ..
  · trivial

theorem sameGpr_tlbWriteIndexed : (tlbWriteIndexed s).Leaves (SameGpr s) := leaves_ite rfl (leaves_ite rfl trivial)

theorem sameGpr_tlbWriteRandom : (tlbWriteRandom s).Leaves (SameGpr s) := leaves_ite trivial rfl

theorem sameGpr_tlbProbeOut : (tlbProbeOut s).Leaves (SameGpr s) := by
  unfold tlbProbeOut
  dsimp only
  split
  · rfl
  · rfl
  · trivial

/-- The two invalidates, the load and the store of a tag, the fill and the write-back move lines and bytes only (R621). -/
theorem sameGpr_icacheOp (operation : BitVec 3) (va : Word) (pa : PAddr) :
    (icacheOp operation va pa s).Leaves (SameGpr s) := by
  have hhit : (s.icInvalidateHit va pa).gpr = s.gpr := by
    unfold State.icInvalidateHit
    split <;> rfl
  unfold icacheOp
  split
  · rfl
  · rfl
  · rfl
  · exact (hidingLine_gpr ..).trans hhit
  · exact leaves_ite trivial rfl
  · split
    · rfl
    · exact leaves_ite trivial (leaves_ite rfl rfl)
  · trivial

/-- The data-cache operations work on the two sets and TagLo (R622). -/
theorem sameGpr_dcacheOp (operation : BitVec 3) (va : Word) (pa : PAddr) :
    (dcacheOp operation va pa s).Leaves (SameGpr s) := by
  unfold dcacheOp
  split
  · rfl
  · rfl
  · exact leaves_ite trivial (leaves_ite trivial rfl)
  · trivial
  · exact leaves_ite trivial rfl
  · rfl
  · rfl
  · trivial

theorem sameGpr_cacheOut (op : BitVec 5) (va : Word) : (cacheOut op va s).Leaves (SameGpr s) := by
  unfold cacheOut
  split
  · trivial
  · rfl
  · refine leaves_ite (k := .ok _) rfl ?_
    unfold cacheOp
    split
    · exact sameGpr_icacheOp ..
    · exact sameGpr_dcacheOp ..
    · trivial

theorem sameGpr_cp1Unit (payload : BitVec 26) : (cp1Unit payload s).Leaves (SameGpr s) := leaves_ite rfl rfl

/-- A move from the unit has its destination written in WB; in EX only the unit's own registers change (R640). -/
theorem sameGpr_cop1Out (payload : BitVec 26) : (cop1Out payload s).Leaves (SameGpr s) := by
  unfold cop1Out
  dsimp only
  split
  · rfl
  · rfl
  · rfl
  · rfl
  · rfl
  · rfl
  · split
    · exact leaves_branchOut _ _ _ _ rfl
    · exact leaves_branchOut _ _ _ _ rfl
    · exact leaves_branchOut _ _ _ _ rfl
    · exact leaves_branchOut _ _ _ _ rfl
    · exact sameGpr_cp1Unit ..
  · exact sameGpr_cp1Unit ..

/-- The EX stage of every instruction leaves the general registers alone (R763): each row of the table is one of the shared
operations. -/
theorem sameGpr_exOf (i : Instr) : (exOf i s).Leaves (SameGpr s) :=
  have h : SameGpr s s := rfl
  match i with
  | .addu .. | .subu .. | .slt .. | .sltu .. | .and_ .. | .or_ .. | .xor_ .. | .nor_ .. | .addiu .. | .slti .. | .sltiu ..
  | .andi .. | .ori .. | .xori .. | .lui .. | .sll .. | .sllv .. => leaves_resultFor _ _ h
  | .mfhi .. | .mflo .. => leaves_resultFor (P := SameGpr s) _ _ rfl
  | .add .. | .sub .. | .addi .. => leaves_trapping32 _ _ _ _ h
  | .dadd .. | .dsub .. | .daddi .. => leaves_withOps64 h (leaves_trapping64 _ _ h)
  | .daddu .. | .dsubu .. | .daddiu .. | .dsll .. | .dsrl .. | .dsra .. | .dsll32 .. | .dsrl32 .. | .dsra32 .. | .dsllv ..
  | .dsrlv .. | .dsrav .. => leaves_withOps64 h (leaves_resultFor _ _ h)
  | .srl .. | .sra .. | .srlv .. | .srav .. => leaves_shiftRight32 _ _ _ h
  | .mult .. | .multu .. => leaves_withWords _ _ (sameGpr_writeHiLo s _ _)
  | .dmult .. | .dmultu .. => leaves_withOps64 h (sameGpr_writeHiLo s _ _)
  | .div .. | .divu .. => leaves_withWords _ _ (leaves_ite (sameGpr_divideByZero s) (sameGpr_writeHiLo s _ _))
  | .ddiv .. | .ddivu .. => leaves_withOps64 h (leaves_ite (sameGpr_divideByZero s) (sameGpr_writeHiLo s _ _))
  | .mthi .. | .mtlo .. => sameGpr_writeHiLo s _ _
  | .jalr .. => leaves_ite trivial (leaves_branchOut _ _ _ _ h)
  | .j .. | .jal .. | .jr .. | .beq .. | .bne .. | .blez .. | .bgtz .. | .beql .. | .bnel .. | .blezl .. | .bgtzl ..
  | .bltz .. | .bgez .. | .bltzl .. | .bgezl .. => leaves_branchOut _ _ _ _ h
  | .bltzal .. | .bgezal .. | .bltzall .. | .bgezall .. => leaves_linkBranch _ _ _ _ h
  | .lb .. | .lbu .. | .lh .. | .lhu .. | .lw .. | .lwu .. | .ld .. | .lwl .. | .lwr .. | .ldl .. | .ldr .. | .sb .. | .sh ..
  | .sw .. | .sd .. | .swl .. | .swr .. | .sdl .. | .sdr .. | .ll .. | .sc .. | .lld .. | .scd .. => by
    unfold exOf
    exact leaves_loadStore _ _ _ _ h
  | .mfc0 .. => leaves_withCp0 h (leaves_resultFor _ _ h)
  | .dmfc0 .. => leaves_withCp0 h (leaves_withOps64 h (leaves_resultFor _ _ h))
  | .mtc0 .. => leaves_withCp0 h (sameGpr_moveToCp0 s _ _)
  | .dmtc0 .. => leaves_withCp0 h (leaves_withOps64 h (sameGpr_moveToCp0 s _ _))
  | .tlbr => leaves_withCp0 h (sameGpr_tlbReadOut s)
  | .tlbwi => leaves_withCp0 h (sameGpr_tlbWriteIndexed s)
  | .tlbwr => leaves_withCp0 h (sameGpr_tlbWriteRandom s)
  | .tlbp => leaves_withCp0 h (sameGpr_tlbProbeOut s)
  | .eret => leaves_withCp0 h (sameGpr_eretOut s)
  | .sync | .syscall .. | .break_ .. => h
  | .tge .. | .tgeu .. | .tlt .. | .tltu .. | .teq .. | .tne .. | .tgei .. | .tgeiu .. | .tlti .. | .tltiu .. | .teqi ..
  | .tnei .. => leaves_trapIf _ h
  | .cache .. => leaves_withCp0 h (sameGpr_cacheOut s _ _)
  | .cop1 .. => leaves_withCp1 h (sameGpr_cop1Out s _)
  | .lwc1 .. | .ldc1 .. | .swc1 .. | .sdc1 .. => leaves_withCp1 h (leaves_memAccess _ _ _ _ _ h)
  | .cop2 .. | .lwc2 .. | .ldc2 .. | .swc2 .. | .sdc2 .. => leaves_noCop2 h

end

/-! ## An instruction is one register write -/

/-- The rest of an instruction writes one general register, register 0 where it takes an exception. -/
theorem finish_gpr {r : ExResult} {s t : State} (hr : r.Leaves (SameGpr s)) (h : finish r s = .next t) :
    ∃ d v, t.gpr = (s.writeReg d v).gpr := by
  unfold finish at h
  split at h
  · cases h
  · cases h
    exact ⟨0#5, 0#64, by rw [takeException_gpr, writeReg_zero]; exact hr⟩
  · next o =>
    split at h
    · cases h
      exact ⟨o.dest, o.result, by rw [advance_gpr, writeBack_gpr]; exact writeReg_gpr_congr hr _ _⟩
    · next rq _ =>
      split at h
      · cases h
      · cases h
        exact ⟨0#5, 0#64, by rw [takeException_gpr, writeReg_zero]⟩
      · next v st hdc =>
        cases h
        have hst : st.gpr = s.gpr := (sameGpr_dcAccess hdc).trans hr
        exact ⟨_, v, by rw [advance_gpr, writeBack_gpr]; exact writeReg_gpr_congr hst _ _⟩

/-- Every instruction that answers a next state, an exception entry among them, has written at most one general register. -/
theorem exec_gpr {i : Instr} {s t : State} (h : exec i s = .next t) : ∃ d v, t.gpr = (s.writeReg d v).gpr := by
  rw [exec_eq_finish] at h
  exact finish_gpr (sameGpr_exOf s i) h

/-- No instruction changes the cell of register 0 (R40). -/
theorem exec_gpr_zero {i : Instr} {s t : State} (h : exec i s = .next t) : t.gpr[0] = s.gpr[0] := by
  obtain ⟨d, v, hg⟩ := exec_gpr h
  simp only [hg, writeReg_gpr_zero]

/-- Settles O10: a write to register 0 is no write, and an instruction is one register write. -/
theorem registerZero : Obligations.RegisterZero := fun s =>
  ⟨readReg_zero s, writeReg_zero s, fun _ t h => ⟨readReg_zero t, exec_gpr_zero h⟩⟩

end Sys2Proof.Machine
end

section
/-! PROOFS. The segment tables and the unmapped segments (20_memory.md R150 to R156). The rows of R153 that share a mode stand
in the order of their addresses and do not overlap, so that at most one contains an address; what R154 says of an unmapped
segment is a fact about each row's offset. -/

namespace Sys2Proof.Machine

/-! ## The rows of the tables -/

/-- In a mode the two segments share, the first ends no later than the second begins. -/
abbrev Segment.Before (g h : Segment) : Prop :=
  ∀ m ∈ g.modes, m ∈ h.modes → g.start.toNat + g.length.toNat ≤ h.start.toNat

/-- The rows of R153 that share a mode do not overlap. -/
theorem segments_pairwise_before : segments.Pairwise Segment.Before := by decide

/-- No segment wraps around the end of the address space. -/
theorem segments_end_le {g : Segment} (hg : g ∈ segments) : g.start.toNat + g.length.toNat ≤ 2 ^ 64 := by
  have hall : ∀ g ∈ segments, g.start.toNat + g.length.toNat ≤ 2 ^ 64 := by decide
  exact hall g hg

/-- An unmapped segment that reaches past 0xFFFFFFFF80000000 is kseg0 or kseg1: half a gigabyte, measured from its own start,
which is a multiple of its length. -/
theorem segments_unmapped_compat {g : Segment} (hg : g ∈ segments) (hm : g.mapped = false)
    (hi : 0xFFFFFFFF80000000 < g.start.toNat + g.length.toNat) :
    g.offset = g.start ∧ g.length.toNat = 2 ^ 29 ∧ g.start.toNat % 2 ^ 29 = 0 := by
  have hall : ∀ g ∈ segments, g.mapped = false → 0xFFFFFFFF80000000 < g.start.toNat + g.length.toNat →
      g.offset = g.start ∧ g.length.toNat = 2 ^ 29 ∧ g.start.toNat % 2 ^ 29 = 0 := by decide
  exact hall g hg hm hi

/-- An unmapped segment with addresses of region 2 is an xkphys window, whose offset has no low 32 bits. -/
theorem segments_unmapped_xkphys {g : Segment} (hg : g ∈ segments) (hm : g.mapped = false)
    (lo : 2 ^ 63 < g.start.toNat + g.length.toNat) (hi : g.start.toNat < 0xC000000000000000) :
    g.offset.toNat % 2 ^ 32 = 0 := by
  have hall : ∀ g ∈ segments, g.mapped = false → 2 ^ 63 < g.start.toNat + g.length.toNat →
      g.start.toNat < 0xC000000000000000 → g.offset.toNat % 2 ^ 32 = 0 := by decide
  exact hall g hg hm lo hi

/-- A segment contains the addresses from its start to before its end (R150). -/
theorem contains_iff {g : Segment} (hg : g ∈ segments) (va : Word) :
    g.contains va = true ↔ g.start.toNat ≤ va.toNat ∧ va.toNat < g.start.toNat + g.length.toNat := by
  have hend := segments_end_le hg
  have hva := va.isLt
  simp only [Segment.contains, BitVec.ult, decide_eq_true_eq, BitVec.toNat_sub]
  omega

/-! ## At most one segment contains an address -/

/-- The segments of a mode's table that contain an address. -/
def segmentsAt (m : SegMode) (va : Word) : List Segment :=
  segments.filter (fun g => g.modes.contains m && g.contains va)

theorem mem_segmentsAt {m : SegMode} {va : Word} {g : Segment} :
    g ∈ segmentsAt m va ↔ g ∈ segments ∧ g.modes.contains m = true ∧ g.contains va = true := by
  simp only [segmentsAt, List.mem_filter, Bool.and_eq_true]

/-- `resolve` answers the first segment that contains the address (R151). -/
theorem resolveIn_eq_head? (m : SegMode) (va : Word) : resolveIn m va = (segmentsAt m va).head? :=
  List.head?_filter.symm

/-- Of two segments in order, at most one contains an address in a mode. -/
theorem not_before_of_mem {m : SegMode} {va : Word} {g h : Segment} (hg : g ∈ segmentsAt m va)
    (hh : h ∈ segmentsAt m va) : ¬ g.Before h := by
  obtain ⟨gmem, gmode, gva⟩ := mem_segmentsAt.mp hg
  obtain ⟨hmem, hmode, hva⟩ := mem_segmentsAt.mp hh
  have hlt := ((contains_iff gmem va).mp gva).2
  have hle := ((contains_iff hmem va).mp hva).1
  intro hbefore
  have := hbefore m (List.contains_iff_mem.mp gmode) (List.contains_iff_mem.mp hmode)
  omega

/-- At most one segment of a mode's table contains an address (R156). -/
theorem segmentsAt_length_le (m : SegMode) (va : Word) : (segmentsAt m va).length ≤ 1 := by
  have hpair : (segmentsAt m va).Pairwise Segment.Before := segments_pairwise_before.filter _
  have hnot : ∀ g ∈ segmentsAt m va, ∀ h ∈ segmentsAt m va, ¬ g.Before h :=
    fun _ hg _ hh => not_before_of_mem hg hh
  match hl : segmentsAt m va with
  | [] | [_] => simp
  | g :: h :: rest =>
    rw [hl] at hpair hnot
    exact absurd (List.rel_of_pairwise_cons hpair (by simp)) (hnot g (by simp) h (by simp))

/-- `resolve` answers the segment that contains the address (R151, R156). -/
theorem resolveIn_eq_some_iff {m : SegMode} {va : Word} {g : Segment} :
    resolveIn m va = some g ↔ g ∈ segmentsAt m va := by
  rw [resolveIn_eq_head?]
  match segmentsAt m va, segmentsAt_length_le m va with
  | [], _ => simp
  | [h], _ => simp [eq_comm]

/-- Settles O53: the segments that contain an address are at most one, and `resolve` answers the first. -/
theorem segmentTotality : Obligations.SegmentTotality := fun m va =>
  ⟨segmentsAt_length_le m va, fun _ => resolveIn_eq_some_iff.trans mem_segmentsAt⟩

/-! ## Addresses of the unmapped segments -/

/-- An address in an unmapped segment translates to its distance from the segment's offset (R154, R170). -/
theorem translate_unmapped {c : TransCtx} {va : Word} {m : SegMode} {g : Segment} (k : AccessKind)
    (hmode : segMode c.status = some m) (herl : erlUpper m va = false) (hres : resolveIn m va = some g)
    (hm : g.mapped = false) :
    translate c va k = .ok g (lo32 (va - g.offset)) (segCached c.config g.cached) := by
  simp [translate, hmode, herl, hres, hm]

section
variable {m : SegMode} {va : Word} {g : Segment} (hg : g ∈ segmentsAt m va) (hm : g.mapped = false)
include hg hm

/-- In kseg0 and kseg1 the physical address is `va[28:0]` (R154). -/
theorem unmappedPa_compat (hva : 0xFFFFFFFF80000000 ≤ va.toNat) :
    (lo32 (va - g.offset)).toNat = va.toNat % 2 ^ 29 := by
  obtain ⟨hmem, -, hin⟩ := mem_segmentsAt.mp hg
  obtain ⟨hle, hlt⟩ := (contains_iff hmem va).mp hin
  obtain ⟨hoff, hlen, hstart⟩ := segments_unmapped_compat hmem hm (by omega)
  have hsub : (va - g.start).toNat = va.toNat - g.start.toNat := BitVec.toNat_sub_of_le hle
  rw [hoff, BitVec.toNat_setWidth, hsub]
  omega

/-- In an xkphys window the physical address is `va[31:0]` (R154). -/
theorem unmappedPa_xkphys (hva : va.extractLsb' 62 2 = 2#2) :
    lo32 (va - g.offset) = va.extractLsb' 0 32 := by
  obtain ⟨hmem, -, hin⟩ := mem_segmentsAt.mp hg
  obtain ⟨hle, hlt⟩ := (contains_iff hmem va).mp hin
  have hregion : va.toNat / 2 ^ 62 % 4 = 2 := by
    simpa [Nat.shiftRight_eq_div_pow] using congrArg BitVec.toNat hva
  have hoff := segments_unmapped_xkphys hmem hm (by omega) (by omega)
  apply BitVec.eq_of_toNat_eq
  simp only [BitVec.toNat_setWidth, BitVec.toNat_sub, BitVec.extractLsb'_toNat, Nat.shiftRight_zero]
  omega

end

/-- The boot vector lies in an unmapped, uncached segment of every kernel table, at 0x1FC00000. -/
theorem resolveIn_bootVector {m : SegMode} (h : m = .k32 ∨ m = .k64 ∨ m = .k32Erl ∨ m = .k64Erl) :
    ∃ g, resolveIn m 0xFFFFFFFFBFC00000#64 = some g ∧ g.mapped = false ∧ g.cached = .uncached ∧
      lo32 (0xFFFFFFFFBFC00000#64 - g.offset) = 0x1FC00000#32 := by
  obtain rfl | rfl | rfl | rfl := h <;> exact ⟨_, rfl, rfl, rfl, rfl⟩

/-- The boot vector is above the addresses R153 refuses in any mode. -/
theorem erlUpper_bootVector (m : SegMode) : erlUpper m 0xFFFFFFFFBFC00000#64 = false := by
  cases m <;> decide

/-- The boot vector translates to 0x1FC00000, uncached, in every kernel table. -/
theorem translate_bootVector {c : TransCtx} {m : SegMode} (hmode : segMode c.status = some m)
    (h : m = .k32 ∨ m = .k64 ∨ m = .k32Erl ∨ m = .k64Erl) (k : AccessKind) :
    ∃ g, translate c 0xFFFFFFFFBFC00000#64 k = .ok g 0x1FC00000#32 false := by
  obtain ⟨g, hres, hm, hc, hpa⟩ := resolveIn_bootVector h
  refine ⟨g, ?_⟩
  rw [translate_unmapped k hmode (erlUpper_bootVector m) hres hm, hpa, hc]
  rfl

/-- Settles O54, from the offset of each unmapped segment. -/
theorem unmappedAddresses : Obligations.UnmappedAddresses := by
  refine ⟨fun c va k m g hmode herl hres hm => ?_, fun c hmode => ?_⟩
  · have hg := resolveIn_eq_some_iff.mp hres
    exact ⟨_, translate_unmapped k hmode herl hres hm, unmappedPa_compat hg hm, unmappedPa_xkphys hg hm⟩
  · obtain h | h | h | h := hmode <;> exact translate_bootVector h (by simp) .fetch

end Sys2Proof.Machine
end

section
/-! PROOFS. The code fields of SYSCALL, BREAK and the register traps (30_encoding.md R273): a word with a code field lies in the
SPECIAL group whatever the code is, and the code does not reach the EX stage. -/

namespace Sys2Proof.Machine

/-- A word with a 20-bit code field is decoded in the SPECIAL group (R265). -/
theorem decode_code20 (c : BitVec 20) (funct : BitVec 6) :
    decode (0#6 ++ c ++ funct) = decodeSpecial (0#6 ++ c ++ funct) := by
  simp only [decode, fieldOp_code20]

/-- A word with a 10-bit code field is decoded in the SPECIAL group (R265). -/
theorem decode_code10 (rs rt : RegNo) (c : BitVec 10) (funct : BitVec 6) :
    decode (0#6 ++ rs ++ rt ++ c ++ funct) = decodeSpecial (0#6 ++ rs ++ rt ++ c ++ funct) := by
  simp only [decode, fieldOp_code10]

/-- SYSCALL and BREAK decode with every code (R273). -/
theorem decode_systemCall (c : BitVec 20) :
    decode (0#6 ++ c ++ 0x0C#6) = .instr (.syscall c) ∧ decode (0#6 ++ c ++ 0x0D#6) = .instr (.break_ c) := by
  simp only [decode_code20, decodeSpecial, fieldFunct_code20, fieldCode20_code20, and_self]

/-- The register traps decode with every code (R273). -/
theorem decode_registerTrap (rs rt : RegNo) (c : BitVec 10) :
    decode (0#6 ++ rs ++ rt ++ c ++ 0x30#6) = .instr (.tge rs rt c) ∧
    decode (0#6 ++ rs ++ rt ++ c ++ 0x31#6) = .instr (.tgeu rs rt c) ∧
    decode (0#6 ++ rs ++ rt ++ c ++ 0x32#6) = .instr (.tlt rs rt c) ∧
    decode (0#6 ++ rs ++ rt ++ c ++ 0x33#6) = .instr (.tltu rs rt c) ∧
    decode (0#6 ++ rs ++ rt ++ c ++ 0x34#6) = .instr (.teq rs rt c) ∧
    decode (0#6 ++ rs ++ rt ++ c ++ 0x36#6) = .instr (.tne rs rt c) := by
  simp only [decode_code10, decodeSpecial, fieldFunct_code10, fieldRs_code10, fieldRt_code10, fieldCode10_code10, and_self]

/-- Two instructions with one EX stage do the same: the later stages see EX's answer only. -/
theorem exec_eq_of_exOf_eq {i j : Instr} {s : State} (h : exOf i s = exOf j s) : exec i s = exec j s := by
  rw [exec_eq_finish, exec_eq_finish, h]

/-- Settles O7: every code field decodes through the SPECIAL group, and no EX stage reads its code. -/
theorem codeFieldsIgnored : Obligations.CodeFieldsIgnored := by
  refine ⟨decode_systemCall, decode_registerTrap, fun s c d => ?_, fun s rs rt c d => ?_⟩
  · exact ⟨exec_eq_of_exOf_eq rfl, exec_eq_of_exOf_eq rfl⟩
  · exact ⟨exec_eq_of_exOf_eq rfl, exec_eq_of_exOf_eq rfl, exec_eq_of_exOf_eq rfl, exec_eq_of_exOf_eq rfl,
      exec_eq_of_exOf_eq rfl, exec_eq_of_exOf_eq rfl⟩

end Sys2Proof.Machine
end

section
/-! PROOFS. Division by zero (41_muldiv.md R402). The EX stage of each divide, when its divisor is 0, is `divideByZero`: a write
of two free values to HI and LO, whatever the dividend is. -/

namespace Sys2Proof.Machine

/-- A word multiply or divide whose operands are sign-extended is not refused for them (R401). -/
theorem withWords_sx32 {rs rt : RegNo} {s : State} (k : ExResult) (hs : sx32 (s.readReg rs) = true)
    (ht : sx32 (s.readReg rt) = true) : withWords rs rt s k = k := by
  simp only [withWords, hs, ht, Bool.and_self, if_true]

/-- An instruction whose EX stage is a divide by zero leaves free values in HI and LO and nothing else (R402). -/
theorem completes_divideByZero {i : Instr} {s : State} (hex : exOf i s = divideByZero s) (hfree : HiLoFree s) :
    Completes i s (HiLoOnly s · (Config.draw s.draws) (Config.draw (s.draws + 1))) := by
  unfold Completes
  rw [exec_eq_finish, hex]
  exact hiLoOnly_writeHiLo s.drawn (s.drawnAt 1) hfree rfl

/-- The word divides with a sign-extended dividend and divisor 0 (R402). -/
theorem exOf_wordDivide_zero {rs rt : RegNo} {s : State} (hs : sx32 (s.readReg rs) = true) (ht : s.readReg rt = 0#64) :
    exOf (.div rs rt) s = divideByZero s ∧ exOf (.divu rs rt) s = divideByZero s := by
  have hsx : sx32 (s.readReg rt) = true := by rw [ht]; rfl
  have hlo : lo32 (s.readReg rt) = 0#32 := by rw [ht]; rfl
  exact ⟨(withWords_sx32 _ hs hsx).trans (if_pos hlo), (withWords_sx32 _ hs hsx).trans (if_pos hlo)⟩

/-- The doubleword divides with divisor 0, where 64-bit operations are allowed (R402, R275). -/
theorem exOf_doubleDivide_zero {rs rt : RegNo} {s : State} (h64 : ops64Allowed s.cp0.status = true)
    (ht : s.readReg rt = 0#64) :
    exOf (.ddiv rs rt) s = divideByZero s ∧ exOf (.ddivu rs rt) s = divideByZero s :=
  ⟨(withOps64_allowed _ h64).trans (if_pos ht), (withOps64_allowed _ h64).trans (if_pos ht)⟩

/-- Settles O18: with divisor 0 the EX stage of every divide is `divideByZero`. -/
theorem divideByZeroDraws : Obligations.DivideByZeroDraws := by
  refine fun s rs rt hfree => ⟨fun hs ht => ?_, fun h64 ht => ?_⟩
  · obtain ⟨hdiv, hdivu⟩ := exOf_wordDivide_zero hs ht
    exact ⟨completes_divideByZero hdiv hfree, completes_divideByZero hdivu hfree⟩
  · obtain ⟨hddiv, hddivu⟩ := exOf_doubleDivide_zero h64 ht
    exact ⟨completes_divideByZero hddiv hfree, completes_divideByZero hddivu hfree⟩

end Sys2Proof.Machine
end

section
/-! PROOFS. The killed delay slot (42_branch.md R443 to R445). A fetch that gives a word has touched nothing of the state but the
active segment, the instruction cache and the count of free values, so the slot is still killed behind it; the word that then
executes is 0, which is SLL of register 0. -/

namespace Sys2Proof.Machine

/-! ## What a fetch leaves -/

/-- The state behind a fetch differs at most in the active segment (R159), the instruction cache (R222) and the free values a
device's answer has used. -/
def FetchKeeps (s t : State) : Prop :=
  t = { s with activeSeg := t.activeSeg, icache := t.icache, draws := t.draws }

theorem fetchKeeps_fetchUncached {s t : State} {pa : PAddr} {w : Word32} (h : fetchUncached pa s = .word w t) :
    FetchKeeps s t := by
  unfold fetchUncached at h
  split at h
  · cases h
  · split at h <;> cases h
    rfl

theorem fetchKeeps_fetchCached {s t : State} {va : Word} {pa : PAddr} {w : Word32} (h : fetchCached va pa s = .word w t) :
    FetchKeeps s t := by
  unfold fetchCached at h
  split at h
  · cases h
    rfl
  · split at h
    · cases h
    · split at h <;> cases h
      rfl

/-- The segment becomes active before the bus is asked (R159). -/
theorem FetchKeeps.of_activeSeg {s t : State} {seg : Segment} (h : FetchKeeps { s with activeSeg := seg } t) :
    FetchKeeps s t := h

theorem fetchKeeps_fetch {s t : State} {w : Word32} (h : fetch s = .word w t) : FetchKeeps s t := by
  unfold fetch at h
  dsimp only at h
  split at h
  · cases h
  · split at h
    · cases h
    · split at h <;> cases h
    · split at h
      · cases h
      · split at h
        · exact (fetchKeeps_fetchCached h).of_activeSeg
        · exact (fetchKeeps_fetchUncached h).of_activeSeg

/-- A fetch does not change whether the slot is killed (R443). -/
theorem FetchKeeps.killed {s t : State} (h : FetchKeeps s t) : t.killed = s.killed := by
  rw [h]
  rfl

/-! ## The word of a killed slot -/

/-- The word 0 is SLL of register 0. -/
theorem decode_zero : decode 0#32 = .instr (.sll 0#5 0#5 0#5) := rfl

/-- SLL to register 0 discards its result (R40): its only effect is the advance of the pc. -/
theorem gprOnly_sll_zero (s : State) (rt : RegNo) (sa : BitVec 5) :
    ∃ t, exec (.sll 0#5 rt sa) s = .next t ∧ GprOnly s t 0#5 0#64 := by
  rw [exec_eq_finish]
  obtain ⟨t, hnext, hres, hrest, hmem, hseq⟩ :=
    gprOnly_resultFor 0#5 (sext64 (lo32 (s.readReg rt) <<< sa.toNat)) s
  exact ⟨t, hnext, { hres with dest := hres.dest }, hrest, hmem, hseq⟩

/-- Whatever word a killed slot holds, 0 runs in its place (R444), where no interrupt is taken first. -/
theorem runWord_killed {s : State} (w : Word32) (hk : s.killed = true) (hint : intPending s.cp0 = false) :
    runWord w s = exec (.sll 0#5 0#5 0#5) s.age := by
  have hmask : s.maskWord w = 0#32 := if_pos hk
  simp only [runWord, hint, hmask, decode_zero, execDecoded, Bool.false_eq_true, if_false]

/-! ## A step without the cold-reset signal -/

/-- Without the cold-reset signal a step is the inputs and the timer, then the fetched instruction (R730). -/
theorem step_of_not_coldReset {s : State} (h : s.coldReset = false) : step s = runStep (beginStep s) := by
  simp only [step, h, Bool.false_eq_true, if_false]

/-- An exception of the fetch is taken, before any interrupt (R666). -/
theorem runStep_of_fetch_raise {s : State} {e : Exc} (h : fetch s = .raise e) : runStep s = .next (takeException e s) := by
  simp only [runStep, h]

theorem runStep_of_fetch_word {s f : State} {w : Word32} (h : fetch s = .word w f) : runStep s = runWord w f := by
  simp only [runStep, h]

/-- Settles O24: the fetch leaves the slot killed, and a killed slot runs SLL of register 0. -/
theorem killedDelaySlot : Obligations.KilledDelaySlot := by
  intro s hs b hk
  refine ⟨fun e hf => ?_, fun w f hf hint => ?_⟩
  · rw [step_of_not_coldReset hs, runStep_of_fetch_raise hf]
  · have hkf : f.killed = true := (fetchKeeps_fetch hf).killed.trans hk
    rw [step_of_not_coldReset hs, runStep_of_fetch_word hf, runWord_killed w hkf hint]
    exact gprOnly_sll_zero f.age 0#5 0#5

end Sys2Proof.Machine
end

section
/-! PROOFS. CP0 not usable (44_system.md R570). The check of R570 stands before the rest of the EX stage of every CP0
instruction, and of a reserved word of the COP0 group; where it fails, the stage's answer is Coprocessor Unusable with the
state as it was. -/

namespace Sys2Proof.Machine

/-! ## The check of R570 -/

/-- A CP0 instruction where CP0 is not usable (R570). -/
theorem withCp0_unusable {s : State} (k : ExResult) (h : cp0Usable s.cp0.status = false) :
    withCp0 s k = .raise (.copUnusable 0#2) s := by
  simp [withCp0, h]

/-- An instruction whose EX stage raises in the state before it takes the exception there. -/
theorem takes_of_exOf_raise {i : Instr} {s : State} {e : Exc} (h : exOf i s = .raise e s) : Takes i s e := by
  unfold Takes
  rw [exec_eq_finish, h, finish_raise]

/-- An instruction whose EX stage begins with the check takes CpU with CE = 0 where CP0 is not usable (R570). -/
theorem takes_copUnusable_of_exOf {i : Instr} {s : State} {k : ExResult} (h : cp0Usable s.cp0.status = false)
    (hex : exOf i s = withCp0 s k) : Takes i s (.copUnusable 0#2) :=
  takes_of_exOf_raise (hex.trans (withCp0_unusable k h))

/-- A reserved word of the COP0 group makes the check first, whatever the policy for reserved words is (R271, R570). -/
theorem execDecoded_reservedCop0_unusable {s : State} (h : cp0Usable s.cp0.status = false) :
    execDecoded (.reserved true) s = .next (takeException (.copUnusable 0#2) s) := by
  have hout : reservedOut true s = .raise (.copUnusable 0#2) s := withCp0_unusable _ h
  rw [execDecoded, hout, finish_raise]

/-! ## The fields of Cause after an exception (R650, R670) -/

/-- Cause.ExcCode is the exception's code. -/
theorem causeAfter_excCode (c : Cp0) (e : Exc) (bd : Bool) (d : Word) :
    (causeAfter c e bd d).extractLsb' 2 5 = e.code := by
  unfold causeAfter
  rw [extract_append_high _ _ _ _ (by decide), extract_append_low _ _ _ _ (by decide)]
  exact extract_whole e.code

/-- Cause.CE after a Coprocessor Unusable is the coprocessor's number. -/
theorem causeAfter_ce (c : Cp0) (n : BitVec 2) (bd : Bool) (d : Word) :
    (causeAfter c (.copUnusable n) bd d).extractLsb' 28 2 = n := by
  unfold causeAfter
  rw [extract_append_high _ _ _ _ (by decide), extract_append_high _ _ _ _ (by decide),
    extract_append_high _ _ _ _ (by decide), extract_append_high _ _ _ _ (by decide),
    extract_append_high _ _ _ _ (by decide), extract_append_low _ _ _ _ (by decide)]
  exact extract_whole n

/-! ## The obligation -/

/-- Every CP0 instruction (R570) begins its EX stage with the check, so it takes CpU with CE = 0 where CP0 is not usable. -/
theorem takes_copUnusable_cp0 {s : State} (h : cp0Usable s.cp0.status = false) (rt rd op : RegNo) (offset : BitVec 16)
    (base : RegNo) :
    ∀ i ∈ [Instr.mfc0 rt rd, .dmfc0 rt rd, .mtc0 rt rd, .dmtc0 rt rd, .tlbr, .tlbwi, .tlbwr, .tlbp, .eret,
      .cache op offset base], Takes i s (.copUnusable 0#2) := by
  simp only [List.forall_mem_cons, List.not_mem_nil, false_imp_iff, implies_true, and_true]
  have takes {i : Instr} {k : ExResult} (hex : exOf i s = withCp0 s k) := takes_copUnusable_of_exOf h hex
  exact ⟨takes rfl, takes rfl, takes rfl, takes rfl, takes rfl, takes rfl, takes rfl, takes rfl, takes rfl, takes rfl⟩

/-- Settles O36: the check of R570 stands first in each EX stage and in that of a reserved COP0 word, and Cause's fields are
those of the exception. -/
theorem cp0Unusable : Obligations.Cp0Unusable := by
  refine ⟨fun _ => rfl, fun s h => ⟨takes_copUnusable_cp0 h, ?_, ?_, execDecoded_reservedCop0_unusable h, rfl⟩⟩
  · exact causeAfter_ce s.cp0 0#2 s.delay.isSome s.drawn
  · exact causeAfter_excCode s.cp0 (.copUnusable 0#2) s.delay.isSome s.drawn

end Sys2Proof.Machine
end

section
/-! PROOFS. The exception vectors (60_exceptions.md R672). The vector is the base BEV chooses plus an offset, which is 0x180 at
exception level and the exception's own otherwise. A refill comes from the mapped case of a translation alone, which raises
it with the mode's flag. -/

namespace Sys2Proof.Machine

/-! ## The vector an exception goes to -/

/-- An exception goes to its vector, under the Status it is taken with (R670). -/
@[simp] theorem takeException_pc (e : Exc) (s : State) : (takeException e s).pc = exceptionVector s.cp0.status e := rfl

/-- At exception level every exception has the offset 0x180 (R672). -/
theorem exceptionVector_of_exl {st : Word32} (e : Exc) (h : stEXL st = true) :
    exceptionVector st e = vectorBase st + 0x180#64 := by
  simp only [exceptionVector, h, if_true]

/-- Outside exception level an exception has its own offset (R672). -/
theorem exceptionVector_of_not_exl {st : Word32} (e : Exc) (h : stEXL st = false) :
    exceptionVector st e = vectorBase st + e.offset := by
  simp only [exceptionVector, h, Bool.false_eq_true, if_false]

/-- An exception other than a TLB refill has the general offset (R672). -/
theorem Exc.offset_of_ne_tlbRefill {e : Exc} (h : ∀ k va m, e ≠ .tlbRefill k va m) : e.offset = 0x180#64 := by
  unfold Exc.offset
  split
  · next k va m => exact absurd rfl (h k va m)
  · rfl

/-! ## The flag of a refill a translation raises -/

/-- A matching entry raises no refill (R170). -/
theorem translateEntry_ne_tlbRefill (seg : Segment) (t : TlbEntry) (va va' : Word) (kind k : AccessKind) (m : Bool) :
    translateEntry seg t va kind ≠ .raise (.tlbRefill k va' m) := by
  unfold translateEntry
  split
  · nofun
  · dsimp only
    split
    · nofun
    · split
      · nofun
      · split <;> nofun

/-- A refill of the mapped case carries the mode's 64-bit flag (R170, R672). -/
theorem translateMapped_tlbRefill_mode64 {c : TransCtx} {seg : Segment} {va va' : Word} {kind k : AccessKind} {m : Bool}
    (h : translateMapped c seg va kind = .raise (.tlbRefill k va' m)) : m = mode64 c.status := by
  unfold translateMapped at h
  split at h
  · cases h; rfl
  · cases h
  · split at h
    · exact (translateEntry_ne_tlbRefill _ _ _ _ _ _ _ h).elim
    · cases h; rfl

/-- A refill of a translation carries the mode's 64-bit flag: only the mapped case raises one (R170, R672). -/
theorem translate_tlbRefill_mode64 {c : TransCtx} {va va' : Word} {kind k : AccessKind} {m : Bool}
    (h : translate c va kind = .raise (.tlbRefill k va' m)) : m = mode64 c.status := by
  unfold translate at h
  split at h
  · cases h
  · split at h
    · cases h
    · split at h
      · cases h
      · split at h
        · exact translateMapped_tlbRefill_mode64 h
        · cases h

/-! ## The obligation -/

/-- Settles O49: the cases of the offset, and the flag of a refill from the mapped case of the translation. -/
theorem exceptionVectors : Obligations.ExceptionVectors := by
  refine fun s e => ⟨fun hexl => ?_, fun hexl => ?_, fun va k m h => translate_tlbRefill_mode64 (c := s.transCtx) h⟩
  · exact (takeException_pc e s).trans (exceptionVector_of_exl e hexl)
  · have hpc : (takeException e s).pc = vectorBase s.cp0.status + e.offset :=
      (takeException_pc e s).trans (exceptionVector_of_not_exl e hexl)
    refine ⟨fun k va he => ?_, fun k va he => ?_, fun hne => ?_⟩
    · subst he
      exact hpc.trans (BitVec.add_zero _)
    · subst he
      exact hpc
    · rw [Exc.offset_of_ne_tlbRefill hne] at hpc
      exact hpc

end Sys2Proof.Machine
end

section
/-! PROOFS. The encoder and the decoder (30_encoding.md R260 to R276): the decoder reads each format's fields back, and a word is put
together from its fields. -/

namespace Sys2Proof

/-! ## The group a format's word is decoded in (R265) -/

theorem decode_encR (rs rt rd : RegNo) (sa : BitVec 5) (funct : BitVec 6) :
    decode (encR rs rt rd sa funct) = decodeSpecial (encR rs rt rd sa funct) := by
  simp only [decode, fieldOp_encR]

theorem decode_encI_regimm (rs rt : RegNo) (imm : BitVec 16) :
    decode (encI 1#6 rs rt imm) = decodeRegimm (encI 1#6 rs rt imm) := by
  simp only [decode, fieldOp_encI]

theorem decode_encCop0 (sub : BitVec 5) (rt rd : RegNo) :
    decode (encCop0 sub rt rd) = decodeCop0 (encCop0 sub rt rd) := by
  simp only [decode, fieldOp_encCop0]

theorem decode_encCo (funct : BitVec 6) : decode (encCo funct) = decodeCop0 (encCo funct) := by
  simp only [decode, fieldOp_encCo]

/-! ## The fields the COP0 group reads besides those of R262 (R268) -/

/-- Bit 25 of a COP0 move word is the top bit of its sub-opcode. -/
theorem extract_co_encCop0 (sub : BitVec 5) (rt rd : RegNo) :
    (encCop0 sub rt rd).extractLsb' 25 1 = sub.extractLsb' 4 1 := by
  simp (disch := omega) only [encCop0, extract_append_low, extract_append_high, Nat.reduceSub]

theorem extract_zero_encCop0 (sub : BitVec 5) (rt rd : RegNo) : (encCop0 sub rt rd).extractLsb' 0 11 = 0#11 := by
  simp (disch := omega) only [encCop0, extract_append_low, extract_whole]

theorem extract_co_encCo (funct : BitVec 6) : (encCo funct).extractLsb' 25 1 = 1#1 := by
  simp (disch := omega) only [encCo, extract_append_low, extract_append_high, extract_whole, Nat.reduceSub]

theorem extract_zero_encCo (funct : BitVec 6) : (encCo funct).extractLsb' 6 19 = 0#19 := by
  simp (disch := omega) only [encCo, extract_append_low, extract_append_high, extract_whole, Nat.reduceSub]

/-- The decoder reads the word of every instruction as that instruction: R-type words in the SPECIAL group, the branches and
traps of R267 in REGIMM, the CP0 forms in COP0, the others by the primary opcode. -/
theorem decode_encode : (i : Instr) → decode (encode i) = .instr i
  | .add .. | .addu .. | .sub .. | .subu .. | .dadd .. | .daddu .. | .dsub .. | .dsubu .. | .slt .. | .sltu .. | .and_ ..
  | .or_ .. | .xor_ .. | .nor_ .. | .sll .. | .srl .. | .sra .. | .dsll .. | .dsrl .. | .dsra .. | .dsll32 .. | .dsrl32 ..
  | .dsra32 .. | .sllv .. | .srlv .. | .srav .. | .dsllv .. | .dsrlv .. | .dsrav .. | .mult .. | .multu .. | .dmult ..
  | .dmultu .. | .div .. | .divu .. | .ddiv .. | .ddivu .. | .mfhi .. | .mflo .. | .mthi .. | .mtlo .. | .jr .. | .jalr ..
  | .sync => by
    rw [encode, decode_encR, decodeSpecial, fieldFunct_encR]
    show whenZero _ _ = _
    simp only [fieldRs_encR, fieldRt_encR, fieldRd_encR, fieldSa_encR, whenZero, and_self, if_true]
  | .syscall c => (Machine.decode_systemCall c).1
  | .break_ c => (Machine.decode_systemCall c).2
  | .tge .. | .tgeu .. | .tlt .. | .tltu .. | .teq .. | .tne .. => by
    simp only [encode, Machine.decode_registerTrap]
  | .bltz .. | .bgez .. | .bltzl .. | .bgezl .. | .bltzal .. | .bgezal .. | .bltzall .. | .bgezall .. | .tgei .. | .tgeiu ..
  | .tlti .. | .tltiu .. | .teqi .. | .tnei .. => by
    rw [encode, decode_encI_regimm, decodeRegimm, fieldRt_encI]
    show Decoded.instr _ = _
    simp only [fieldRs_encI, fieldImm_encI]
  | .mfc0 .. | .dmfc0 .. | .mtc0 .. | .dmtc0 .. => by
    rw [encode, decode_encCop0, decodeCop0, extract_co_encCop0, fieldRs_encCop0]
    show whenZero _ _ = _
    simp only [fieldRt_encCop0, fieldRd_encCop0, extract_zero_encCop0, whenZero, if_true]
  | .tlbr | .tlbwi | .tlbwr | .tlbp | .eret => by
    rw [encode, decode_encCo, decodeCop0, extract_co_encCo, fieldFunct_encCo]
    show whenZero _ _ = _
    simp only [extract_zero_encCo, whenZero, if_true]
  | .j .. | .jal .. | .cop1 .. | .cop2 .. => by
    rw [encode, decode, fieldOp_wide, fieldTarget_wide]
    rfl
  | .lui .. | .blez .. | .bgtz .. | .blezl .. | .bgtzl .. => by
    rw [encode, decode, fieldOp_encI]
    show whenZero _ _ = _
    simp only [fieldRs_encI, fieldRt_encI, fieldImm_encI, whenZero, if_true]
  | .addi .. | .addiu .. | .daddi .. | .daddiu .. | .slti .. | .sltiu .. | .andi .. | .ori .. | .xori .. | .beq .. | .bne ..
  | .beql .. | .bnel .. | .lb .. | .lbu .. | .lh .. | .lhu .. | .lw .. | .lwu .. | .ld .. | .lwl .. | .lwr .. | .ldl ..
  | .ldr .. | .sb .. | .sh .. | .sw .. | .sd .. | .swl .. | .swr .. | .sdl .. | .sdr .. | .ll .. | .sc .. | .lld .. | .scd ..
  | .cache .. | .lwc1 .. | .ldc1 .. | .swc1 .. | .sdc1 .. | .lwc2 .. | .ldc2 .. | .swc2 .. | .sdc2 .. => by
    rw [encode, decode, fieldOp_encI]
    show Decoded.instr _ = _
    simp only [fieldRs_encI, fieldRt_encI, fieldImm_encI]

/-! ## A word and its bytes (R140) -/

/-- A slice and the one below it are one slice. -/
theorem extract_append_extract {n : Nat} (x : BitVec n) (lo k m : Nat) :
    x.extractLsb' (lo + m) k ++ x.extractLsb' lo m = x.extractLsb' lo (k + m) := by
  ext i hi
  simp only [BitVec.getElem_append, BitVec.getElem_extractLsb']
  split
  · rfl
  · congr 1
    omega

/-- The bytes of a word, put together again, are the word. -/
theorem decodeBytes_wordBytes (w : Word32) : decodeBytes (wordBytes w) = some (decode w, []) := by
  have hw : w.extractLsb' 24 8 ++ w.extractLsb' 16 8 ++ w.extractLsb' 8 8 ++ w.extractLsb' 0 8 = w := by
    rw [extract_append_extract w 16 8 8, extract_append_extract w 8 16 8, extract_append_extract w 0 24 8, extract_whole]
  rw [wordBytes, decodeBytes, hw]

/-- A word in the opcode table's numbering is its number. -/
theorem decodeTableWord_of_decode {w : Word32} {i : Instr} (h : decode w = .instr i) :
    decodeTableWord 32 w.toNat = some i := by
  have hlt : 32 ≤ 32 ∧ w.toNat < 2 ^ 32 := ⟨Nat.le_refl _, w.isLt⟩
  rw [decodeTableWord, if_pos hlt, BitVec.ofNat_toNat, BitVec.setWidth_eq, decodeBytes_wordBytes, h]

/-- Settles O5: the word decodes to the instruction, and its bytes and its number are the word. -/
theorem decodeEncode : Obligations.DecodeEncode := fun i =>
  ⟨decode_encode i, by rw [decodeBytes_wordBytes, decode_encode], decodeTableWord_of_decode (decode_encode i)⟩

end Sys2Proof
end

section
/-! PROOFS. What the EX stage of an instruction can answer, said once for all instructions (70_reset_and_hazards.md R763): a stop,
an exception in the state before, a result, a branch, a write of HI and LO, a bus request, a change of the CP1 unit, or, for the
instructions that need CP0, a change of the system state. And what the stages behind EX make of such an answer (R823). -/

namespace Sys2Proof.Machine

/-! ## The answers of EX -/

/-- The instructions that need CP0 (R570). -/
inductive NeedsCp0 : Instr → Prop
  | mfc0 (rt rd : RegNo) : NeedsCp0 (.mfc0 rt rd)
  | dmfc0 (rt rd : RegNo) : NeedsCp0 (.dmfc0 rt rd)
  | mtc0 (rt rd : RegNo) : NeedsCp0 (.mtc0 rt rd)
  | dmtc0 (rt rd : RegNo) : NeedsCp0 (.dmtc0 rt rd)
  | tlbr : NeedsCp0 .tlbr
  | tlbwi : NeedsCp0 .tlbwi
  | tlbwr : NeedsCp0 .tlbwr
  | tlbp : NeedsCp0 .tlbp
  | eret : NeedsCp0 .eret
  | cache (op : BitVec 5) (offset : BitVec 16) (base : RegNo) : NeedsCp0 (.cache op offset base)

/-- The access an instruction makes (R501). -/
inductive Accesses : Instr → MemOp → Prop
  | lb (rt : RegNo) (offset : BitVec 16) (base : RegNo) : Accesses (.lb rt offset base) .lb
  | lbu (rt : RegNo) (offset : BitVec 16) (base : RegNo) : Accesses (.lbu rt offset base) .lbu
  | lh (rt : RegNo) (offset : BitVec 16) (base : RegNo) : Accesses (.lh rt offset base) .lh
  | lhu (rt : RegNo) (offset : BitVec 16) (base : RegNo) : Accesses (.lhu rt offset base) .lhu
  | lw (rt : RegNo) (offset : BitVec 16) (base : RegNo) : Accesses (.lw rt offset base) .lw
  | lwu (rt : RegNo) (offset : BitVec 16) (base : RegNo) : Accesses (.lwu rt offset base) .lwu
  | ld (rt : RegNo) (offset : BitVec 16) (base : RegNo) : Accesses (.ld rt offset base) .ld
  | lwl (rt : RegNo) (offset : BitVec 16) (base : RegNo) : Accesses (.lwl rt offset base) .lwl
  | lwr (rt : RegNo) (offset : BitVec 16) (base : RegNo) : Accesses (.lwr rt offset base) .lwr
  | ldl (rt : RegNo) (offset : BitVec 16) (base : RegNo) : Accesses (.ldl rt offset base) .ldl
  | ldr (rt : RegNo) (offset : BitVec 16) (base : RegNo) : Accesses (.ldr rt offset base) .ldr
  | sb (rt : RegNo) (offset : BitVec 16) (base : RegNo) : Accesses (.sb rt offset base) .sb
  | sh (rt : RegNo) (offset : BitVec 16) (base : RegNo) : Accesses (.sh rt offset base) .sh
  | sw (rt : RegNo) (offset : BitVec 16) (base : RegNo) : Accesses (.sw rt offset base) .sw
  | sd (rt : RegNo) (offset : BitVec 16) (base : RegNo) : Accesses (.sd rt offset base) .sd
  | swl (rt : RegNo) (offset : BitVec 16) (base : RegNo) : Accesses (.swl rt offset base) .swl
  | swr (rt : RegNo) (offset : BitVec 16) (base : RegNo) : Accesses (.swr rt offset base) .swr
  | sdl (rt : RegNo) (offset : BitVec 16) (base : RegNo) : Accesses (.sdl rt offset base) .sdl
  | sdr (rt : RegNo) (offset : BitVec 16) (base : RegNo) : Accesses (.sdr rt offset base) .sdr
  | ll (rt : RegNo) (offset : BitVec 16) (base : RegNo) : Accesses (.ll rt offset base) .ll
  | sc (rt : RegNo) (offset : BitVec 16) (base : RegNo) : Accesses (.sc rt offset base) .sc
  | lld (rt : RegNo) (offset : BitVec 16) (base : RegNo) : Accesses (.lld rt offset base) .lld
  | scd (rt : RegNo) (offset : BitVec 16) (base : RegNo) : Accesses (.scd rt offset base) .scd
  | lwc1 (rt : RegNo) (offset : BitVec 16) (base : RegNo) : Accesses (.lwc1 rt offset base) .lwc1
  | ldc1 (rt : RegNo) (offset : BitVec 16) (base : RegNo) : Accesses (.ldc1 rt offset base) .ldc1
  | swc1 (rt : RegNo) (offset : BitVec 16) (base : RegNo) : Accesses (.swc1 rt offset base) .swc1
  | sdc1 (rt : RegNo) (offset : BitVec 16) (base : RegNo) : Accesses (.sdc1 rt offset base) .sdc1

/-- A state that differs at most in what the CP0, TLB and CACHE instructions work on: CP0, the TLB, the instruction cache, the
data-cache sets, memory, the active segment and the model's own record. -/
def SystemOnly (s t : State) : Prop :=
  t = { s with
    cp0 := t.cp0, tlb := t.tlb, icache := t.icache, activeSeg := t.activeSeg, dDirty := t.dDirty, dMaybe := t.dMaybe
    mem := t.mem, recency := t.recency, hz := { s.hz with cp0 := t.hz.cp0, icBefore := t.hz.icBefore }, draws := t.draws }

/-- What the EX stage of an instruction answers. -/
inductive ExAnswers (i : Instr) (s : State) : ExResult → Prop
  | stop (r : Refusal) : ExAnswers i s (.stop r)
  | raise (e : Exc) : ExAnswers i s (.raise e s)
  | result (rd : RegNo) (v : Word) : ExAnswers i s (.ok { st := s, dest := rd, result := v })
  | branch (link : RegNo) (v : Word) (taken likely : Bool) (target : Word) :
      ExAnswers i s (.ok { st := s, dest := link, result := v, ctl := .branch taken likely target })
  | readHiLo (rd : RegNo) (v : Word) (hi : i = .mfhi rd ∨ i = .mflo rd) :
      ExAnswers i s (.ok { st := { s with hz := { s.hz with hiloAge := 0 } }, dest := rd, result := v })
  | writeHiLo (hi lo : Word) (n : Nat) :
      ExAnswers i s (.ok { st := { s with hi := hi, lo := lo, draws := n }, immWrite := true })
  | access (op : MemOp) (rt : RegNo) (va data old : Word) (seg : Segment) (pa : PAddr) (cached : Bool)
      (hi : Accesses i op) (hal : va.toNat % op.alignment = 0)
      (htr : translate s.transCtx va op.kind = .ok seg pa cached) :
      ExAnswers i s (.ok { st := s, dest := rt, request := some (requestOf op va pa cached data old) })
  | cp1 (c : Cp1) (n : Nat) : ExAnswers i s (.ok { st := { s with cp1 := c, draws := n }, immWrite := true })
  | cp1Raise (e : Exc) (c : Cp1) : ExAnswers i s (.raise e { s with cp1 := c })
  | system (o : ExOut) (hi : NeedsCp0 i) (hok : exOf i s = .ok o) (hreq : o.request = none)
      (hst : SystemOnly s o.st) (hctl : o.ctl.isEret = true → i = .eret) : ExAnswers i s (.ok o)

/-! ## The shared operations -/

section
variable {i : Instr} {s : State}

theorem answers_ite {c : Prop} [Decidable c] {k l : ExResult} (hk : ExAnswers i s k) (hl : ExAnswers i s l) :
    ExAnswers i s (if c then k else l) := by
  split
  · exact hk
  · exact hl

theorem answers_withOps64 {k : ExResult} (hk : ExAnswers i s k) : ExAnswers i s (withOps64 s k) := answers_ite hk (.raise _)

theorem answers_withCp1 {k : ExResult} (hk : ExAnswers i s k) : ExAnswers i s (withCp1 s k) :=
  answers_ite (.raise _) (answers_ite (.stop _) hk)

theorem answers_withWords (rs rt : RegNo) {k : ExResult} (hk : ExAnswers i s k) : ExAnswers i s (withWords rs rt s k) :=
  answers_ite hk (.stop _)

theorem answers_trapping32 (rd : RegNo) (a b : Word) (t : Int) : ExAnswers i s (trapping32 rd a b t s) :=
  answers_ite (.stop _) (answers_ite (.result _ _) (.raise _))

theorem answers_trapping64 (rd : RegNo) (t : Int) : ExAnswers i s (trapping64 rd t s) :=
  answers_ite (.result _ _) (.raise _)

theorem answers_shiftRight32 (rd : RegNo) (v : Word) (r : Word32) : ExAnswers i s (shiftRight32 rd v r s) :=
  answers_ite (.result _ _) (.stop _)

theorem answers_trapIf (c : Bool) : ExAnswers i s (trapIf c s) := answers_ite (.raise _) (.result 0#5 0#64)

theorem answers_noCop2 : ExAnswers i s (noCop2 s) := answers_ite (.raise _) (.raise _)

theorem answers_branchOut (taken likely : Bool) (target : Word) (link : RegNo) :
    ExAnswers i s (branchOut s taken likely target link) := answers_ite (.stop _) (.branch _ _ _ _ _)

theorem answers_linkBranch (rs : RegNo) (taken likely : Bool) (imm : BitVec 16) :
    ExAnswers i s (linkBranch rs taken likely imm s) := answers_ite (.stop _) (answers_branchOut _ _ _ _)

theorem answers_writeHiLo (hi lo : Word) : ExAnswers i s (writeHiLo hi lo s) :=
  answers_ite (.stop _) (.writeHiLo hi lo s.draws)

theorem answers_divideByZero : ExAnswers i s (divideByZero s) := answers_ite (.stop _) (.writeHiLo _ _ (s.draws + 2))

theorem answers_memAccess {op : MemOp} (rt : RegNo) (va data old : Word) (hi : Accesses i op) :
    ExAnswers i s (memAccess op rt va data old s) := by
  unfold memAccess
  split
  · exact .raise _
  · next hal =>
    split
    · exact .stop _
    · exact .raise _
    · next htr =>
      split
      · exact .stop _
      · have hout := ExAnswers.access (i := i) op rt va data old _ _ _ hi (Decidable.not_not.mp hal) htr
        refine answers_ite hout ?_
        split
        · exact hout
        · exact .raise _
        · exact .stop _

theorem answers_loadStore {op : MemOp} (rt : RegNo) (offset : BitVec 16) (base : RegNo) (hi : Accesses i op) :
    ExAnswers i s (loadStore op rt offset base s) :=
  answers_ite (answers_withOps64 (answers_memAccess _ _ _ _ hi)) (answers_memAccess _ _ _ _ hi)

theorem answers_cp1Unit (payload : BitVec 26) : ExAnswers i s (cp1Unit payload s) :=
  answers_ite (.cp1Raise _ _) (.cp1 _ s.draws)

/-- A word of the CP1 unit moves a result, the pc, or the unit's own registers (R640). -/
theorem answers_cop1Out (payload : BitVec 26) : ExAnswers i s (cop1Out payload s) := by
  unfold cop1Out
  dsimp only
  split
  · exact .result _ _
  · exact .result _ _
  · exact .result _ _
  · exact .cp1 _ (s.draws + 1)
  · exact .cp1 _ s.draws
  · exact .cp1 _ s.draws
  · split
    · exact answers_branchOut _ _ _ _
    · exact answers_branchOut _ _ _ _
    · exact answers_branchOut _ _ _ _
    · exact answers_branchOut _ _ _ _
    · exact answers_cp1Unit _
  · exact answers_cp1Unit _

end

/-! ## The instructions that need CP0 -/

/-- An answer of a CP0 instruction behind the check of R570: it makes no request, it changes the system state only, and only
ERET returns. -/
def SystemAnswers (i : Instr) (s : State) : ExResult → Prop
  | .stop _ => True
  | .raise _ st => st = s
  | .ok o => o.request = none ∧ SystemOnly s o.st ∧ (o.ctl.isEret = true → i = .eret)

section
variable {i : Instr} {s : State}

theorem system_ite {c : Prop} [Decidable c] {k l : ExResult} (hk : SystemAnswers i s k) (hl : SystemAnswers i s l) :
    SystemAnswers i s (if c then k else l) := by
  split
  · exact hk
  · exact hl

theorem system_withOps64 {k : ExResult} (hk : SystemAnswers i s k) : SystemAnswers i s (withOps64 s k) :=
  system_ite (l := .raise _ s) hk rfl

/-- An instruction that goes on in sequence with a new system state. -/
theorem system_seq {st : State} {rd : RegNo} {v : Word} {imm : Bool} {l : Option (ReqType × Nat)} (h : SystemOnly s st) :
    SystemAnswers i s (.ok { st := st, dest := rd, result := v, immWrite := imm, lineMove := l }) := ⟨rfl, h, nofun⟩

theorem system_moveFromCp0 (wide : Bool) (rt n : RegNo) : SystemAnswers i s (moveFromCp0 wide rt n s) := system_seq rfl

theorem system_moveToCp0 (n : RegNo) (v : Word) : SystemAnswers i s (moveToCp0 n v s) := by
  refine system_seq ?_
  split <;> split <;> rfl

theorem system_tlbReadOut : SystemAnswers i s (tlbReadOut s) := by
  unfold tlbReadOut
  split
  · exact system_seq rfl
  · trivial

theorem system_tlbWriteIndexed : SystemAnswers i s (tlbWriteIndexed s) :=
  system_ite (system_seq rfl) (system_ite (system_seq rfl) trivial)

theorem system_tlbWriteRandom : SystemAnswers i s (tlbWriteRandom s) := system_ite trivial (system_seq rfl)

theorem system_tlbProbeOut : SystemAnswers i s (tlbProbeOut s) := by
  unfold tlbProbeOut
  dsimp only
  split
  · exact system_seq rfl
  · exact system_seq rfl
  · trivial

theorem systemOnly_icInvalidateHit (va : Word) (pa : PAddr) : SystemOnly s (s.icInvalidateHit va pa) := by
  unfold State.icInvalidateHit
  split <;> rfl

/-- An operation on the instruction cache leaves its line's old content for the next fetch, nothing else (R627). -/
theorem SystemOnly.hidingLine {t : State} (va : Word) (h : SystemOnly s t) : SystemOnly s (s.hidingLine va t) := by
  unfold SystemOnly State.hidingLine at *
  rw [h]

theorem system_icacheOp (operation : BitVec 3) (va : Word) (pa : PAddr) : SystemAnswers i s (icacheOp operation va pa s) := by
  unfold icacheOp
  split
  · exact system_seq rfl
  · exact system_seq rfl
  · exact system_seq rfl
  · exact system_seq ((systemOnly_icInvalidateHit va pa).hidingLine va)
  · exact system_ite trivial (system_seq rfl)
  · split
    · exact system_seq rfl
    · exact system_ite trivial (system_ite (system_seq rfl) (system_seq rfl))
  · trivial

theorem system_dcacheOp (operation : BitVec 3) (va : Word) (pa : PAddr) : SystemAnswers i s (dcacheOp operation va pa s) := by
  unfold dcacheOp
  split
  · exact system_seq rfl
  · exact system_seq rfl
  · exact system_ite trivial (system_ite trivial (system_seq rfl))
  · trivial
  · exact system_ite trivial (system_seq rfl)
  · exact system_seq rfl
  · exact system_seq rfl
  · trivial

theorem system_cacheOut (op : BitVec 5) (va : Word) : SystemAnswers i s (cacheOut op va s) := by
  unfold cacheOut
  split
  · trivial
  · rfl
  · refine system_ite (system_seq rfl) ?_
    unfold cacheOp
    split
    · exact system_icacheOp ..
    · exact system_dcacheOp ..
    · trivial

theorem system_eretOut : SystemAnswers .eret s (eretOut s) := system_ite trivial ⟨rfl, rfl, fun _ => rfl⟩

/-- The EX stage of an instruction that needs CP0 begins with the check of R570. -/
theorem exOf_needsCp0 (h : NeedsCp0 i) : ∃ k, exOf i s = withCp0 s k ∧ SystemAnswers i s k := by
  cases h
  · exact ⟨_, rfl, system_moveFromCp0 ..⟩
  · exact ⟨_, rfl, system_withOps64 (system_moveFromCp0 ..)⟩
  · exact ⟨_, rfl, system_moveToCp0 ..⟩
  · exact ⟨_, rfl, system_withOps64 (system_moveToCp0 ..)⟩
  · exact ⟨_, rfl, system_tlbReadOut⟩
  · exact ⟨_, rfl, system_tlbWriteIndexed⟩
  · exact ⟨_, rfl, system_tlbWriteRandom⟩
  · exact ⟨_, rfl, system_tlbProbeOut⟩
  · exact ⟨_, rfl, system_eretOut⟩
  · exact ⟨_, rfl, system_cacheOut ..⟩

theorem answers_needsCp0 (h : NeedsCp0 i) : ExAnswers i s (exOf i s) := by
  obtain ⟨k, hex, hk⟩ := exOf_needsCp0 (s := s) h
  by_cases hu : cp0Usable s.cp0.status = true
  · rw [withCp0_usable _ hu] at hex
    rw [hex]
    cases k with
    | stop r => exact .stop r
    | raise e st => exact hk ▸ .raise e
    | ok o => exact .system o h hex hk.1 hk.2.1 hk.2.2
  · rw [hex, withCp0_unusable _ (Bool.not_eq_true _ ▸ hu)]
    exact .raise _

end

/-- What the EX stage of every instruction answers: each row of the table is one of the shared operations. -/
theorem exAnswers (i : Instr) (s : State) : ExAnswers i s (exOf i s) :=
  match i with
  | .addu .. | .subu .. | .slt .. | .sltu .. | .and_ .. | .or_ .. | .xor_ .. | .nor_ .. | .addiu .. | .slti .. | .sltiu ..
  | .andi .. | .ori .. | .xori .. | .lui .. | .sll .. | .sllv .. => .result _ _
  | .mfhi .. => .readHiLo _ _ (.inl rfl)
  | .mflo .. => .readHiLo _ _ (.inr rfl)
  | .add .. | .sub .. | .addi .. => answers_trapping32 _ _ _ _
  | .dadd .. | .dsub .. | .daddi .. => answers_withOps64 (answers_trapping64 _ _)
  | .daddu .. | .dsubu .. | .daddiu .. | .dsll .. | .dsrl .. | .dsra .. | .dsll32 .. | .dsrl32 .. | .dsra32 .. | .dsllv ..
  | .dsrlv .. | .dsrav .. => answers_withOps64 (.result _ _)
  | .srl .. | .sra .. | .srlv .. | .srav .. => answers_shiftRight32 _ _ _
  | .mult .. | .multu .. => answers_withWords _ _ (answers_writeHiLo _ _)
  | .dmult .. | .dmultu .. => answers_withOps64 (answers_writeHiLo _ _)
  | .div .. | .divu .. => answers_withWords _ _ (answers_ite answers_divideByZero (answers_writeHiLo _ _))
  | .ddiv .. | .ddivu .. => answers_withOps64 (answers_ite answers_divideByZero (answers_writeHiLo _ _))
  | .mthi .. | .mtlo .. => answers_writeHiLo _ _
  | .jalr .. => answers_ite (.stop _) (answers_branchOut _ _ _ _)
  | .j .. | .jal .. | .jr .. | .beq .. | .bne .. | .blez .. | .bgtz .. | .beql .. | .bnel .. | .blezl .. | .bgtzl ..
  | .bltz .. | .bgez .. | .bltzl .. | .bgezl .. => answers_branchOut _ _ _ _
  | .bltzal .. | .bgezal .. | .bltzall .. | .bgezall .. => answers_linkBranch _ _ _ _
  | .lb .. | .lbu .. | .lh .. | .lhu .. | .lw .. | .lwu .. | .ld .. | .lwl .. | .lwr .. | .ldl .. | .ldr .. | .sb .. | .sh ..
  | .sw .. | .sd .. | .swl .. | .swr .. | .sdl .. | .sdr .. | .ll .. | .sc .. | .lld .. | .scd .. => by
    unfold exOf
    exact answers_loadStore _ _ _ (by constructor)
  | .mfc0 .. | .dmfc0 .. | .mtc0 .. | .dmtc0 .. | .tlbr | .tlbwi | .tlbwr | .tlbp | .eret | .cache .. => answers_needsCp0 (by constructor)
  | .sync => .result 0#5 0#64
  | .syscall .. | .break_ .. => .raise _
  | .tge .. | .tgeu .. | .tlt .. | .tltu .. | .teq .. | .tne .. | .tgei .. | .tgeiu .. | .tlti .. | .tltiu .. | .teqi ..
  | .tnei .. => answers_trapIf _
  | .cop1 .. => answers_withCp1 (answers_cop1Out _)
  | .lwc1 .. | .ldc1 .. | .swc1 .. | .sdc1 .. => answers_withCp1 (answers_memAccess _ _ _ _ (by constructor))
  | .cop2 .. | .lwc2 .. | .ldc2 .. | .swc2 .. | .sdc2 .. => answers_noCop2

/-! ## The stages behind EX -/

/-- How the stages behind EX come to a next state: the exception of EX, WB without a request, the exception of DC, or DC's
access and WB (R823). -/
inductive FinishesIn (r : ExResult) (s t : State) : Prop
  | raised (e : Exc) (st : State) (hr : r = .raise e st) (ht : t = takeException e st)
  | done (o : ExOut) (hr : r = .ok o) (hreq : o.request = none)
      (ht : t = (writeBack o.dest o.result none o.ctl.isEret o.st).advance o.ctl)
  | faulted (o : ExOut) (e : Exc) (hr : r = .ok o) (ht : t = takeException e s)
  | accessed (o : ExOut) (rq : MemReq) (d : RegNo) (v : Word) (st : State) (hr : r = .ok o) (hreq : o.request = some rq)
      (hdc : dcAccess rq o.dest o.st = .done v st) (ht : t = (writeBack d v rq.linkPa o.ctl.isEret st).advance o.ctl)

theorem finishesIn_of_finish {r : ExResult} {s t : State} (h : finish r s = .next t) : FinishesIn r s t := by
  unfold finish at h
  split at h
  · cases h
  · next e st =>
    cases h
    exact .raised e st rfl rfl
  · next o =>
    split at h
    · next hreq =>
      cases h
      exact .done o rfl hreq rfl
    · next rq hreq =>
      split at h
      · cases h
      · next e _ =>
        cases h
        exact .faulted o e rfl rfl
      · next v st hdc =>
        cases h
        exact .accessed o rq _ v st rfl hreq hdc rfl

/-- How an instruction comes to a next state. -/
theorem finishesIn_of_exec {i : Instr} {s t : State} (h : exec i s = .next t) : FinishesIn (exOf i s) s t := by
  rw [exec_eq_finish] at h
  exact finishesIn_of_finish h

/-- A state that differs at most in what DC works on: the data-cache sets, memory, the CP1 registers and the store windows. -/
def AccessOnly (s t : State) : Prop :=
  t = { s with
    dDirty := t.dDirty, dMaybe := t.dMaybe, mem := t.mem, cp1 := t.cp1, hz := { s.hz with stores := t.hz.stores }
    draws := t.draws }

theorem accessOnly_book (store cached : Bool) (pa : PAddr) (s : State) : AccessOnly s (s.book store cached pa) := by
  unfold State.book
  split <;> rfl

theorem accessOnly_performRequest {rq : MemReq} {rt : RegNo} {s t : State} {v : Word}
    (h : performRequest rq rt s = .done v t) : AccessOnly s t := by
  unfold performRequest at h
  dsimp only at h
  split at h
  · cases h
    rw [accessOnly_book true rq.cached rq.pa s]
    rfl
  · split at h <;> cases h <;> rw [accessOnly_book false rq.cached rq.pa s] <;> rfl

theorem accessOnly_requestInDc {rq : MemReq} {rt : RegNo} {s t : State} {v : Word}
    (h : requestInDc rq rt s = .done v t) : AccessOnly s t := by
  unfold requestInDc at h
  split at h
  · cases h
  · split at h
    · cases h
    · exact accessOnly_performRequest h

theorem accessOnly_dcAccess {rq : MemReq} {rt : RegNo} {s t : State} {v : Word}
    (h : dcAccess rq rt s = .done v t) : AccessOnly s t := by
  unfold dcAccess at h
  split at h
  · split at h
    · split at h
      · exact accessOnly_requestInDc h
      · cases h
      · cases h
    · cases h
      rfl
  · exact accessOnly_requestInDc h

end Sys2Proof.Machine
end

section
/-! PROOFS. The invariant is kept by every step (10_state.md R40, R61 to R86; 20_memory.md R106, R232). Each EX stage leaves
the invariant and asks the bus for bytes inside the physical space only (`ExResult.Keeps`); the reset handler, the inputs, the
fetch, DC, WB and an exception entry keep it by the laws of the shared operations. -/

namespace Sys2Proof.Machine

/-! ## The CP0 and TLB instructions -/

section
variable {s : State}

theorem keeps_ite {c : Prop} [Decidable c] {k l : ExResult} (hk : k.Keeps) (hl : l.Keeps) : (if c then k else l).Keeps := by
  split
  · exact hk
  · exact hl

/-- An answer without a request keeps the invariant when its state does. -/
theorem keeps_done {st : State} {rd : RegNo} {v : Word} {c : Ctl} {imm : Bool} {l : Option (ReqType × Nat)} (h : Inv st) :
    (ExResult.ok { st := st, dest := rd, result := v, ctl := c, immWrite := imm, lineMove := l }).Keeps :=
  keeps_ok h rfl

theorem keeps_moveToCp0 (n : RegNo) (v : Word) (h : Inv s) : (moveToCp0 n v s).Keeps := by
  have hc := sound_cp0WriteRegs n v h.cp0
  refine keeps_done ?_
  split <;> split <;> exact { h with cp0 := hc }

theorem keeps_moveFromCp0 (wide : Bool) (rt n : RegNo) (h : Inv s) : (moveFromCp0 wide rt n s).Keeps :=
  keeps_resultFor _ _ { h with }

/-- TLBR fills its four registers from fields that leave the reserved bits 0 (R198). -/
theorem inv_tlbRead (e : TlbEntry) (h : Inv s) : Inv (s.tlbRead e) :=
  { h with cp0 := { h.cp0 with
      pageMask := pageMask_and _
      entryHi := makeEntryHi_and _ _ _
      entryLo0 := loFromPage_and _ _
      entryLo1 := loFromPage_and _ _ } }

theorem keeps_tlbReadOut (h : Inv s) : (tlbReadOut s).Keeps := by
  unfold tlbReadOut
  split
  · exact keeps_done (inv_tlbRead _ h)
  · trivial

theorem keeps_tlbWriteIndexed (h : Inv s) : (tlbWriteIndexed s).Keeps :=
  keeps_ite (keeps_done h) (keeps_ite (keeps_done { h with }) trivial)

/-- Random has 6 bits after a TLBWR, under every policy (R62, R204). -/
theorem randomAfterTlbwr_and (h : s.cp0.random &&& 0xFFFFFFC0#32 = 0#32) : randomAfterTlbwr s &&& 0xFFFFFFC0#32 = 0#32 := by
  have hwide : ∀ v : BitVec 6, v.setWidth 32 &&& 0xFFFFFFC0#32 = 0#32 := by decide
  unfold randomAfterTlbwr
  split
  · exact randomNext_and s.cp0
  · exact h
  · exact hwide _

theorem keeps_tlbWriteRandom (h : Inv s) : (tlbWriteRandom s).Keeps :=
  keeps_ite trivial (keeps_done { h with cp0 := { h.cp0 with random := randomAfterTlbwr_and h.cp0.random } })

/-- The index a probe finds is below 32 (R197). -/
theorem index_hit_and {policy : MultiMatch} {recency : List Nat} {tlb : Vector TlbEntry 32} {vpn2 : BitVec 27}
    {r : BitVec 2} {asid : BitVec 8} {i : Nat} (h : tlbPick policy recency (tlbMatches tlb vpn2 r asid) = .hit i) :
    BitVec.ofNat 32 i &&& 0x7FFFFFC0#32 = 0#32 := by
  have hall : ∀ i : Fin 32, BitVec.ofNat 32 i.val &&& 0x7FFFFFC0#32 = 0#32 := by decide
  obtain ⟨hi, -⟩ := mem_tlbMatches.mp (tlbPick_mem h)
  exact hall ⟨i, hi⟩

/-- Index after a probe that missed: P and the field of six bits (R61, R197). -/
theorem index_miss_and (d : BitVec 6) : (1#1 ++ 0#25 ++ d : BitVec 32) &&& 0x7FFFFFC0#32 = 0#32 :=
  append_and_zero (m := 0#1 ++ 0x1FFFFFF#25) (n := 0#6) (append_and_zero (and_zeros _) (zeros_and _)) (and_zeros _)

theorem keeps_tlbProbeOut (h : Inv s) : (tlbProbeOut s).Keeps := by
  unfold tlbProbeOut
  dsimp only
  split
  · next hpick => exact keeps_done { h with cp0 := { h.cp0 with index := index_hit_and hpick } }
  · exact keeps_done { h with cp0 := { h.cp0 with index := index_miss_and _ } }
  · trivial

/-! ## The CACHE operations -/

theorem inv_hidingLine {t : State} (va : Word) (h : Inv t) : Inv (s.hidingLine va t) := { h with }

theorem inv_icInvalidateHit (va : Word) (pa : PAddr) (h : Inv s) : Inv (s.icInvalidateHit va pa) := by
  unfold State.icInvalidateHit
  split
  · exact { h with }
  · exact h

/-- The instruction-cache operations change lines, TagLo, or the bytes of one line of memory (R621). -/
theorem keeps_icacheOp (operation : BitVec 3) (va : Word) (pa : PAddr) (h : Inv s) : (icacheOp operation va pa s).Keeps := by
  unfold icacheOp
  split
  · exact keeps_done (inv_hidingLine va { h with })
  · exact keeps_done { h with cp0 := { h.cp0 with tagLo := tagLo_and _ _ } }
  · exact keeps_done (inv_hidingLine va { h with })
  · exact keeps_done (inv_hidingLine va (inv_icInvalidateHit va pa h))
  · exact keeps_ite trivial (keeps_done (inv_hidingLine va { h with }))
  · split
    · exact keeps_done h
    · exact keeps_ite trivial
        (keeps_ite (keeps_done h) (keeps_done { h with memory := wf_busWrite _ h.memory (lineBase_bound pa) }))
  · trivial

/-- Removing lines from both sets keeps the form, and the inclusion when a dirty line that stays is not removed from DMaybe
(R232). -/
theorem inv_filterLines (f g : Nat → Bool) (hfg : ∀ l, l ∈ s.dDirty → f l = true → g l = true) (h : Inv s) :
    Inv { s with dDirty := s.dDirty.filter f, dMaybe := s.dMaybe.filter g } :=
  { h with
    dirty := linesWfFrom_filter f h.dirty
    maybe := linesWfFrom_filter g h.maybe
    dirtyMaybe := fun l hl =>
      have ⟨hl, hf⟩ := List.mem_filter.mp hl
      List.mem_filter.mpr ⟨h.dirtyMaybe l hl, hfg l hl hf⟩ }

/-- Removing lines from DMaybe alone, none of them dirty. -/
theorem inv_filterMaybe (g : Nat → Bool) (hg : ∀ l, l ∈ s.dDirty → g l = true) (h : Inv s) :
    Inv { s with dMaybe := s.dMaybe.filter g } :=
  { h with
    maybe := linesWfFrom_filter g h.maybe
    dirtyMaybe := fun l hl => List.mem_filter.mpr ⟨h.dirtyMaybe l hl, hg l hl⟩ }

/-- The data-cache operations remove lines from the sets, a dirty one from DMaybe only together with DDirty (R622). -/
theorem keeps_dcacheOp (operation : BitVec 3) (va : Word) (pa : PAddr) (h : Inv s) : (dcacheOp operation va pa s).Keeps := by
  have htag : ∀ x : Word32, x &&& 0x0FFFFFC0#32 &&& 0xF000003F#32 = 0#32 := fun x => by
    rw [BitVec.and_assoc]
    exact and_zeros x
  unfold dcacheOp
  dsimp only
  split
  · exact keeps_done (inv_filterLines _ _ (fun _ _ hf => hf) h)
  · exact keeps_done { h with cp0 := { h.cp0 with tagLo := htag _ } }
  · refine keeps_ite trivial ?_
    split
    · trivial
    · next hno =>
      refine keeps_done (inv_filterMaybe _ (fun l hl => ?_) h)
      simpa using fun hsame => hno (List.any_eq_true.mpr ⟨l, hl, hsame⟩)
  · trivial
  · split
    · trivial
    · next hno =>
      refine keeps_done (inv_filterMaybe _ (fun l hl => ?_) h)
      simpa using fun heq => hno (by simpa [heq] using hl)
  · exact keeps_done (inv_filterLines _ _ (fun _ _ hf => hf) h)
  · exact keeps_done { h with
      dirty := linesWfFrom_filter _ h.dirty
      dirtyMaybe := fun l hl => h.dirtyMaybe l (List.mem_filter.mp hl).1 }
  · trivial

theorem keeps_cacheOut (op : BitVec 5) (va : Word) (h : Inv s) : (cacheOut op va s).Keeps := by
  unfold cacheOut
  split
  · trivial
  · exact h
  · refine keeps_ite (keeps_done h) ?_
    unfold cacheOp
    split
    · exact keeps_icacheOp _ _ _ h
    · exact keeps_dcacheOp _ _ _ h
    · trivial

/-- The EX stage of an instruction that needs CP0 keeps the invariant. -/
theorem keeps_needsCp0 {i : Instr} (hi : NeedsCp0 i) (h : Inv s) : (exOf i s).Keeps := by
  cases hi
  · exact keeps_withCp0 h (keeps_moveFromCp0 _ _ _ h)
  · exact keeps_withCp0 h (keeps_withOps64 h (keeps_moveFromCp0 _ _ _ h))
  · exact keeps_withCp0 h (keeps_moveToCp0 _ _ h)
  · exact keeps_withCp0 h (keeps_withOps64 h (keeps_moveToCp0 _ _ h))
  · exact keeps_withCp0 h (keeps_tlbReadOut h)
  · exact keeps_withCp0 h (keeps_tlbWriteIndexed h)
  · exact keeps_withCp0 h (keeps_tlbWriteRandom h)
  · exact keeps_withCp0 h (keeps_tlbProbeOut h)
  · exact keeps_withCp0 h (keeps_eretOut h)
  · exact keeps_withCp0 h (keeps_cacheOut _ _ h)

/-! ## Every instruction, and the step -/

/-- The EX stage of every instruction keeps the invariant, by what it can answer. -/
theorem keeps_exOf (i : Instr) (h : Inv s) : (exOf i s).Keeps := by
  have ha := exAnswers i s
  generalize hr : exOf i s = r at ha
  cases ha with
  | stop => trivial
  | raise => exact h
  | result => exact keeps_done h
  | branch => exact keeps_done h
  | readHiLo => exact keeps_done { h with hiloAge := Nat.zero_le 3 }
  | writeHiLo => exact keeps_done { h with }
  | access op rt va data old seg pa cached _ hal htr =>
    refine ⟨h, fun rq hrq => ?_⟩
    cases hrq
    exact access_bound hal (translate_low htr)
  | cp1 => exact keeps_done { h with }
  | cp1Raise => exact { h with }
  | system o hi hok => exact hr ▸ keeps_needsCp0 hi h

end

theorem inv_exec {i : Instr} {s t : State} (h : Inv s) (hx : exec i s = .next t) : Inv t := by
  rw [exec_eq_finish] at hx
  exact inv_finish h (keeps_exOf i h) hx

theorem keeps_reservedOut {s : State} (cop0 : Bool) (h : Inv s) : (reservedOut cop0 s).Keeps := by
  have hk : (match s.params.reservedPolicy with
      | .raiseRI => ExResult.raise .reserved s
      | .refuse => .refuse .reservedEncoding).Keeps := by
    split
    · exact h
    · trivial
  exact keeps_ite (keeps_withCp0 h hk) hk

theorem inv_execDecoded {d : Decoded} {s t : State} (h : Inv s) (hx : execDecoded d s = .next t) : Inv t := by
  cases d with
  | instr i => exact inv_exec h hx
  | reserved cop0 => exact inv_finish h (keeps_reservedOut cop0 h) hx
  | mustBeZero => cases hx

theorem inv_runWord {w : Word32} {s t : State} (h : Inv s) (hx : runWord w s = .next t) : Inv t := by
  unfold runWord at hx
  split at hx
  · cases hx
    exact inv_takeException _ h
  · exact inv_execDecoded (inv_age h) hx

theorem inv_runStep {s t : State} (h : Inv s) (hx : runStep s = .next t) : Inv t := by
  unfold runStep at hx
  split at hx
  · cases hx
  · cases hx
    exact inv_takeException _ h
  · next hf => exact inv_runWord (inv_fetch h hf) hx

/-- Settles O9: the reset handler keeps the invariant, and so do the parts of a step out of reset. -/
theorem stepKeepsInvariant : Obligations.StepKeepsInvariant := by
  intro s t h hx
  unfold step at hx
  split at hx
  · cases hx
    exact inv_resetHandler h
  · exact inv_runStep (inv_beginStep h) hx

end Sys2Proof.Machine
end

section
/-! PROOFS. LLbit, the HI/LO window and the system state through an instruction (43_loadstore.md R542, 70_reset_and_hazards.md
R768, 44_system.md R570), from what EX can answer and what the stages behind it do. -/

namespace Sys2Proof.Machine

/-! ## LLbit (R542) -/

/-- WB sets LLbit for an LL marker and clears it for ERET. -/
theorem writeBack_llbit (d : RegNo) (v : Word) (l : Option PAddr) (e : Bool) (s : State) :
    (writeBack d v l e s).llbit = (!e && (l.isSome || s.llbit)) := by
  cases l <;> cases e <;> simp [writeBack]

/-- What EX leaves of LLbit, and that an answer that returns is ERET's. -/
theorem exOf_ok_llbit {i : Instr} {s : State} {o : ExOut} (h : exOf i s = .ok o) :
    o.st.llbit = s.llbit ∧ (o.ctl.isEret = true → i = .eret) := by
  have ha := h ▸ exAnswers i s
  cases ha with
  | system _ _ _ _ hst hctl => exact ⟨by rw [hst], hctl⟩
  | _ => exact ⟨rfl, nofun⟩

theorem exOf_raise_llbit {i : Instr} {s st : State} {e : Exc} (h : exOf i s = .raise e st) : st.llbit = s.llbit := by
  have ha := h ▸ exAnswers i s
  cases ha with
  | _ => rfl

/-- A request of EX is the instruction's own access. -/
theorem exOf_request {i : Instr} {s : State} {o : ExOut} {rq : MemReq} (h : exOf i s = .ok o) (hrq : o.request = some rq) :
    Accesses i rq.op := by
  have ha := h ▸ exAnswers i s
  cases ha with
  | access _ _ _ _ _ _ _ _ hi => cases hrq; exact hi
  | system _ _ _ hreq => rw [hreq] at hrq; cases hrq
  | _ => cases hrq

/-- The linked accesses are those of LL and LLD (R540, R543). -/
theorem accesses_linked {i : Instr} {op : MemOp} (h : Accesses i op) (hl : op.linked = true) :
    ∃ rt offset base, i = .ll rt offset base ∨ i = .lld rt offset base := by
  cases h with
  | ll rt offset base => exact ⟨rt, offset, base, .inl rfl⟩
  | lld rt offset base => exact ⟨rt, offset, base, .inr rfl⟩
  | _ => cases hl

/-- Settles O33: EX leaves LLbit alone, and WB changes it for an LL marker and for ERET only. -/
theorem reservationRule : Obligations.ReservationRule := by
  intro i s t h
  cases finishesIn_of_exec h with
  | raised e st hr ht => exact .inl (by rw [ht, takeException_llbit, exOf_raise_llbit hr])
  | faulted o e hr ht => exact .inl (by rw [ht, takeException_llbit])
  | done o hr hreq ht =>
    obtain ⟨hll, heret⟩ := exOf_ok_llbit hr
    have hbit : t.llbit = (!o.ctl.isEret && s.llbit) := by
      rw [ht, advance_llbit, writeBack_llbit, hll]
      rfl
    cases he : o.ctl.isEret with
    | false => exact .inl (by simpa [he] using hbit)
    | true => exact .inr (.inr ⟨by simpa [he] using hbit, heret he⟩)
  | accessed o rq d v st hr hreq hdc ht =>
    obtain ⟨hll, heret⟩ := exOf_ok_llbit hr
    have hst : st.llbit = s.llbit := by rw [accessOnly_dcAccess hdc, hll]
    have hbit : t.llbit = (!o.ctl.isEret && (rq.linkPa.isSome || s.llbit)) := by
      rw [ht, advance_llbit, writeBack_llbit, hst]
    cases he : o.ctl.isEret with
    | true => exact .inr (.inr ⟨by simpa [he] using hbit, heret he⟩)
    | false =>
      cases hl : rq.op.linked with
      | false => exact .inl (by simpa [he, MemReq.linkPa, hl] using hbit)
      | true =>
        exact .inr (.inl ⟨by simpa [he, MemReq.linkPa, hl] using hbit, accesses_linked (exOf_request hr hreq) hl⟩)

/-! ## The HI/LO window (R768) -/

/-- EX moves the HI/LO window for MFHI and MFLO only. -/
theorem exOf_leaves_hiloAge {i : Instr} (s : State) (hi : ∀ n, i ≠ .mfhi n ∧ i ≠ .mflo n) :
    (exOf i s).Leaves (fun t => t.hz.hiloAge = s.hz.hiloAge) := by
  have ha := exAnswers i s
  generalize exOf i s = r at ha
  cases ha with
  | stop => trivial
  | readHiLo rd v h => exact h.elim (fun h => absurd h (hi rd).1) (fun h => absurd h (hi rd).2)
  | system o _ _ _ hst => exact congrArg (·.hz.hiloAge) hst
  | _ => rfl

/-- An instruction that completes moves the window on by one, and an exception entry leaves it (log entry 8). -/
theorem hiloAge_exec {i : Instr} {s t : State} (hi : ∀ n, i ≠ .mfhi n ∧ i ≠ .mflo n) (h : exec i s = .next t) :
    t.hz.hiloAge = min 3 (s.hz.hiloAge + 1) ∨
      (t.hz.hiloAge = s.hz.hiloAge ∧ ∃ (e : Exc) (u : State), t = takeException e u) := by
  have hex := exOf_leaves_hiloAge s hi
  cases finishesIn_of_exec h with
  | raised e st hr ht =>
    rw [hr] at hex
    exact .inr ⟨by rw [ht]; exact hex, e, st, ht⟩
  | faulted o e hr ht => exact .inr ⟨by rw [ht]; rfl, e, s, ht⟩
  | done o hr hreq ht =>
    rw [hr] at hex
    have hex : o.st.hz.hiloAge = s.hz.hiloAge := hex
    exact .inl (by simp [ht, Hazards.retire, hex])
  | accessed o rq d v st hr hreq hdc ht =>
    rw [hr] at hex
    have hst : st.hz.hiloAge = s.hz.hiloAge := by rw [accessOnly_dcAccess hdc]; exact hex
    exact .inl (by simp [ht, Hazards.retire, hst])

end Sys2Proof.Machine
end

section
/-! PROOFS. A step without CP0 access (44_system.md R570, 60_exceptions.md R670). Where CP0 is not usable the EX stage of an
instruction that needs it is Coprocessor Unusable; every other stage leaves the system registers, the TLB and the instruction
cache alone, but for the refill of the fetch, and an exception entry sets EXL and goes to a vector. -/

namespace Sys2Proof.Machine

/-- The CP0 registers with those blanked that a step changes without an instruction that needs CP0: Random, Count and Cause
with the timer, LLAddr with a linked load, and what an exception entry records. -/
def Cp0.guarded (c : Cp0) : Cp0 :=
  { c with
    random := 0, context := 0, badVAddr := 0, count := 0, entryHi := 0, cause := 0, epc := 0, llAddr := 0, xcontext := 0 }

/-- The system state other than the instruction cache is the same. -/
structure SystemKept (s t : State) : Prop where
  tlb : t.tlb = s.tlb
  recency : t.recency = s.recency
  params : t.params = s.params
  cp0 : t.cp0.guarded = s.cp0.guarded

namespace SystemKept
variable {s t u : State}

theorem trans (h : SystemKept s t) (k : SystemKept t u) : SystemKept s u :=
  ⟨k.tlb.trans h.tlb, k.recency.trans h.recency, k.params.trans h.params, k.cp0.trans h.cp0⟩

theorem status (h : SystemKept s t) : t.cp0.status = s.cp0.status :=
  have hc : t.cp0.guarded.status = s.cp0.guarded.status := congrArg Cp0.status h.cp0
  hc

end SystemKept

/-- The system state is kept with the instruction cache, or an exception is taken in a state that has kept it. -/
def KeepsOrEnters (s t : State) : Prop :=
  (SystemKept s t ∧ t.icache = s.icache) ∨ ∃ e u, t = takeException e u ∧ SystemKept s u ∧ u.icache = s.icache

/-! ## The parts of a step -/

theorem systemKept_beginStep (s : State) : SystemKept s (beginStep s) := by
  obtain ⟨ic, h, -⟩ := externalInvalidates_state s
  unfold beginStep
  rw [h]
  exact ⟨rfl, rfl, rfl, rfl⟩

theorem beginStep_pc (s : State) : (beginStep s).pc = s.pc := by
  obtain ⟨ic, h, -⟩ := externalInvalidates_state s
  unfold beginStep
  rw [h]
  rfl

/-- A fetch that gives a word has taken the segment, free values, and, on a cached miss, refilled the line (R159, R222, R227). -/
theorem fetch_word {b f : State} {w : Word32} (h : fetch b = .word w f) : ∃ seg pa cached,
    translate b.transCtx b.pc .fetch = .ok seg pa cached ∧
    f = { b with activeSeg := seg, icache := f.icache, draws := f.draws } ∧ b.draws ≤ f.draws ∧
    (f.icache = b.icache ∨ (cached = true ∧ b.fetchProbe b.pc pa = none ∧
      ∃ data, f.icache = (b.icFillWith b.pc pa data).icache)) := by
  unfold fetch at h
  dsimp only at h
  split at h
  · cases h
  · split at h
    · cases h
    · split at h <;> cases h
    · next seg pa cached htr =>
      refine ⟨seg, pa, cached, htr, ?_⟩
      split at h
      · cases h
      · split at h
        · next hc =>
          unfold fetchCached at h
          split at h
          · cases h
            exact ⟨rfl, Nat.le_refl _, .inl rfl⟩
          · next hmiss =>
            split at h
            · cases h
            · split at h
              · cases h
              · cases h
                exact ⟨rfl, Nat.le_add_right _ _, .inr ⟨hc, hmiss, _, rfl⟩⟩
        · unfold fetchUncached at h
          split at h
          · cases h
          · split at h
            · cases h
            · cases h
              exact ⟨rfl, Nat.le_add_right _ _, .inl rfl⟩

theorem systemKept_fetch {b f : State} {w : Word32} (h : fetch b = .word w f) : SystemKept b f := by
  rw [fetchKeeps_fetch h]
  exact ⟨rfl, rfl, rfl, rfl⟩

theorem AccessOnly.systemKept {s t : State} (h : AccessOnly s t) : SystemKept s t ∧ t.icache = s.icache := by
  rw [h]
  exact ⟨⟨rfl, rfl, rfl, rfl⟩, rfl⟩

/-- WB writes no system register but LLAddr. -/
theorem systemKept_writeBack (d : RegNo) (v : Word) (l : Option PAddr) (e : Bool) (c : Ctl) (s : State) :
    SystemKept s ((writeBack d v l e s).advance c) := by
  refine ⟨by simp, by simp, by simp, ?_⟩
  rw [advance_cp0]
  cases l <;> cases e <;> simp [writeBack, Cp0.guarded]

/-- Where CP0 is not usable EX leaves the system state alone. -/
theorem exOf_leaves_systemKept {s : State} (i : Instr) (h : cp0Usable s.cp0.status = false) :
    (exOf i s).Leaves (fun t => SystemKept s t ∧ t.icache = s.icache) := by
  have ha := exAnswers i s
  generalize hr : exOf i s = r at ha
  cases ha with
  | stop => trivial
  | system o hi =>
    obtain ⟨k, hk, -⟩ := exOf_needsCp0 (s := s) hi
    rw [hr, withCp0_unusable k h] at hk
    cases hk
  | _ => exact ⟨⟨rfl, rfl, rfl, rfl⟩, rfl⟩

theorem keepsOrEnters_exec {i : Instr} {s t : State} (h : cp0Usable s.cp0.status = false) (hx : exec i s = .next t) :
    KeepsOrEnters s t := by
  have hex := exOf_leaves_systemKept i h
  cases finishesIn_of_exec hx with
  | raised e st hr ht =>
    rw [hr] at hex
    exact .inr ⟨e, st, ht, hex⟩
  | faulted o e hr ht => exact .inr ⟨e, s, ht, ⟨rfl, rfl, rfl, rfl⟩, rfl⟩
  | done o hr hreq ht =>
    rw [hr] at hex
    obtain ⟨hkept, hic⟩ := hex
    exact .inl ⟨ht ▸ hkept.trans (systemKept_writeBack ..), by rw [ht]; simpa using hic⟩
  | accessed o rq d v st hr hreq hdc ht =>
    rw [hr] at hex
    obtain ⟨hkept, hic⟩ := hex
    obtain ⟨hdcKept, hdcIc⟩ := (accessOnly_dcAccess hdc).systemKept
    exact .inl ⟨ht ▸ (hkept.trans hdcKept).trans (systemKept_writeBack ..), by rw [ht]; simpa using hdcIc.trans hic⟩

/-- A reserved word raises or is refused (R271). -/
theorem finish_reservedOut_next {s t : State} {cop0 : Bool} (h : finish (reservedOut cop0 s) s = .next t) :
    ∃ e, t = takeException e s := by
  unfold reservedOut withCp0 at h
  dsimp only at h
  split at h
  · split at h
    · split at h
      · cases h; exact ⟨_, rfl⟩
      · cases h
    · cases h; exact ⟨_, rfl⟩
  · split at h
    · cases h; exact ⟨_, rfl⟩
    · cases h

theorem keepsOrEnters_runWord {w : Word32} {s t : State} (h : cp0Usable s.cp0.status = false) (hx : runWord w s = .next t) :
    KeepsOrEnters s t := by
  unfold runWord at hx
  split at hx
  · cases hx
    exact .inr ⟨.int, s, rfl, ⟨rfl, rfl, rfl, rfl⟩, rfl⟩
  · have hage : SystemKept s s.age := ⟨rfl, rfl, rfl, rfl⟩
    cases hd : decode (s.maskWord w) with
    | instr i =>
      rw [hd] at hx
      rcases keepsOrEnters_exec (s := s.age) h hx with ⟨hkept, hic⟩ | ⟨e, u, ht, hkept, hic⟩
      · exact .inl ⟨hage.trans hkept, hic⟩
      · exact .inr ⟨e, u, ht, hage.trans hkept, hic⟩
    | reserved cop0 =>
      rw [hd] at hx
      obtain ⟨e, ht⟩ := finish_reservedOut_next hx
      exact .inr ⟨e, s.age, ht, hage, rfl⟩
    | mustBeZero =>
      rw [hd] at hx
      cases hx

/-- A step where CP0 is not usable keeps or enters from a state behind the fetch, whose instruction cache has at most the
refilled line changed. -/
theorem keepsOrEnters_runStep {b t : State} (h : cp0Usable b.cp0.status = false) (hx : runStep b = .next t) :
    ∃ f, SystemKept b f ∧ (f.icache = b.icache ∨ ∃ pa data, f.icache = (b.icFillWith b.pc pa data).icache) ∧
      KeepsOrEnters f t := by
  unfold runStep at hx
  split at hx
  · cases hx
  · next e _ =>
    cases hx
    exact ⟨b, ⟨rfl, rfl, rfl, rfl⟩, .inl rfl, .inr ⟨e, b, rfl, ⟨rfl, rfl, rfl, rfl⟩, rfl⟩⟩
  · next w f hf =>
    have hkept := systemKept_fetch hf
    obtain ⟨_, pa, _, _, _, _, hic⟩ := fetch_word hf
    refine ⟨f, hkept, hic.imp_right fun ⟨_, _, data, hd⟩ => ⟨pa, data, hd⟩, keepsOrEnters_runWord ?_ hx⟩
    rw [hkept.status]
    exact h

/-! ## The exception entry -/

/-- What of CP0 an exception entry changes (R670, R677). -/
theorem takeException_cp0 (e : Exc) (s : State) : (takeException e s).cp0 = { s.cp0 with
    epc := (takeException e s).cp0.epc, cause := (takeException e s).cp0.cause, status := (takeException e s).cp0.status
    badVAddr := (takeException e s).cp0.badVAddr, context := (takeException e s).cp0.context
    xcontext := (takeException e s).cp0.xcontext, entryHi := (takeException e s).cp0.entryHi } := by
  cases e <;> rfl

theorem takeException_status (e : Exc) (s : State) : (takeException e s).cp0.status = s.cp0.status ||| 2#32 := rfl

/-- At exception level the mode is kernel (R16). -/
theorem kernelMode_or_exl (st : Word32) : kernelMode (st ||| 2#32) = true := by simp [kernelMode, stEXL]

/-- The system state but Status survives an exception entry. -/
theorem takeException_guarded (e : Exc) (s : State) :
    (takeException e s).cp0.guarded = { s.cp0.guarded with status := s.cp0.status ||| 2#32 } := by
  rw [takeException_cp0]
  rfl

/-! ## The obligation -/

/-- What `KeepsOrEnters` says register by register. -/
theorem KeepsOrEnters.system {s t : State} (h : KeepsOrEnters s t) :
    t.tlb = s.tlb ∧ t.recency = s.recency ∧ t.params = s.params ∧ t.icache = s.icache ∧
    t.cp0.guarded = { s.cp0.guarded with status := t.cp0.status } ∧
    (t.cp0.status = s.cp0.status ∨
      (t.cp0.status = s.cp0.status ||| 2#32 ∧ kernelMode t.cp0.status = true ∧ ∃ e, t.pc = exceptionVector s.cp0.status e)) := by
  rcases h with ⟨hkept, hic⟩ | ⟨e, u, rfl, hkept, hic⟩
  · refine ⟨hkept.tlb, hkept.recency, hkept.params, hic, ?_, .inl hkept.status⟩
    rw [hkept.status]
    exact hkept.cp0
  · refine ⟨hkept.tlb, hkept.recency, hkept.params, hic, ?_, .inr ⟨?_, ?_, e, ?_⟩⟩
    · rw [takeException_guarded, hkept.cp0]
      rfl
    · rw [takeException_status, hkept.status]
    · exact kernelMode_or_exl _
    · rw [takeException_pc, hkept.status]

/-- Settles O56: what the parts of a step keep, put together, and the exception entry. -/
theorem unprivilegedStepKeepsSystemState : Obligations.UnprivilegedStepKeepsSystemState := by
  intro s t hs hu hx
  rw [step_of_not_coldReset hs] at hx
  have hb := systemKept_beginStep s
  obtain ⟨f, hf, hfic, hft⟩ := keepsOrEnters_runStep (hb.status ▸ hu) hx
  have hsf := hb.trans hf
  obtain ⟨htlb, hrec, hpar, hic, hcp0, hst⟩ := hft.system
  rw [hsf.cp0] at hcp0
  rw [hsf.status] at hst
  have reg {α : Type} (g : Cp0 → α) : g t.cp0.guarded = g { s.cp0.guarded with status := t.cp0.status } := congrArg g hcp0
  refine ⟨htlb.trans hsf.tlb, hrec.trans hsf.recency, hpar.trans hsf.params, reg Cp0.index, reg Cp0.entryLo0,
    reg Cp0.entryLo1, reg Cp0.pageMask, reg Cp0.wired, reg Cp0.compare, reg Cp0.config, reg Cp0.watchLo, reg Cp0.watchHi,
    reg Cp0.parityError, reg Cp0.tagLo, reg Cp0.tagHi, reg Cp0.errorEpc, ?_, hst⟩
  rw [beginStep_pc] at hfic
  exact hfic.imp hic.trans fun ⟨pa, data, hd⟩ => ⟨pa, data, hic.trans hd⟩

end Sys2Proof.Machine
end

section
/-! PROOFS. Words and their meanings (30_encoding.md R260 to R276). A word is put together from the fields its row reads and from the
zero fields of R272, so a word with a meaning is that meaning's encoding; the cells of the opcode maps give the words without
one. -/

namespace Sys2Proof

/-! ## Rows with zero fields (R272) -/

@[simp] theorem whenZero_eq_instr {z : Prop} [Decidable z] {i j : Instr} : whenZero z i = .instr j ↔ z ∧ i = j := by
  by_cases hz : z <;> simp [whenZero, hz]

@[simp] theorem whenZero_eq_mustBeZero {z : Prop} [Decidable z] {i : Instr} : whenZero z i = .mustBeZero ↔ ¬ z := by
  by_cases hz : z <;> simp [whenZero, hz]

@[simp] theorem whenZero_eq_reserved {z : Prop} [Decidable z] {i : Instr} {c : Bool} : whenZero z i = .reserved c ↔ False := by
  by_cases hz : z <;> simp [whenZero, hz]

/-! ## A word from its fields (R261, R262) -/

section
variable {w : Word32}

theorem encI_of_fields {op : BitVec 6} {rs rt : RegNo} {imm : BitVec 16} (hop : fieldOp w = op) (hrs : fieldRs w = rs)
    (hrt : fieldRt w = rt) (himm : fieldImm w = imm) : encI op rs rt imm = w := by
  rw [← hop, ← hrs, ← hrt, ← himm, encI, fieldOp, fieldRs, fieldRt, fieldImm, extract_append_extract w 21 6 5,
    extract_append_extract w 16 11 5, extract_append_extract w 0 16 16, extract_whole]

theorem encR_of_fields {rs rt rd : RegNo} {sa : BitVec 5} {funct : BitVec 6} (hop : fieldOp w = 0#6) (hrs : fieldRs w = rs)
    (hrt : fieldRt w = rt) (hrd : fieldRd w = rd) (hsa : fieldSa w = sa) (hf : fieldFunct w = funct) :
    encR rs rt rd sa funct = w := by
  rw [← hrs, ← hrt, ← hrd, ← hsa, ← hf, encR, ← hop, fieldOp, fieldRs, fieldRt, fieldRd, fieldSa, fieldFunct,
    extract_append_extract w 21 6 5, extract_append_extract w 16 11 5, extract_append_extract w 11 16 5,
    extract_append_extract w 6 21 5, extract_append_extract w 0 26 6, extract_whole]

theorem wide_of_fields {op : BitVec 6} (hop : fieldOp w = op) : op ++ fieldTarget w = w := by
  rw [← hop, fieldOp, fieldTarget, extract_append_extract w 0 6 26, extract_whole]

theorem code20_of_fields {funct : BitVec 6} (hop : fieldOp w = 0#6) (hf : fieldFunct w = funct) :
    0#6 ++ fieldCode20 w ++ funct = w := by
  rw [← hop, ← hf, fieldOp, fieldCode20, fieldFunct, extract_append_extract w 6 6 20, extract_append_extract w 0 26 6,
    extract_whole]

theorem code10_of_fields {funct : BitVec 6} (hop : fieldOp w = 0#6) (hf : fieldFunct w = funct) :
    0#6 ++ fieldRs w ++ fieldRt w ++ fieldCode10 w ++ funct = w := by
  rw [← hop, ← hf, fieldOp, fieldRs, fieldRt, fieldCode10, fieldFunct, extract_append_extract w 21 6 5,
    extract_append_extract w 16 11 5, extract_append_extract w 6 16 10, extract_append_extract w 0 26 6, extract_whole]

theorem encCop0_of_fields {sub : BitVec 5} (hop : fieldOp w = 0x10#6) (hrs : fieldRs w = sub)
    (hz : w.extractLsb' 0 11 = 0#11) : encCop0 sub (fieldRt w) (fieldRd w) = w := by
  rw [encCop0, ← hz, ← hop, ← hrs, fieldOp, fieldRs, fieldRt, fieldRd, extract_append_extract w 21 6 5,
    extract_append_extract w 16 11 5, extract_append_extract w 11 16 5, extract_append_extract w 0 21 11, extract_whole]

theorem encCo_of_fields {funct : BitVec 6} (hop : fieldOp w = 0x10#6) (hco : w.extractLsb' 25 1 = 1#1)
    (hz : w.extractLsb' 6 19 = 0#19) (hf : fieldFunct w = funct) : encCo funct = w := by
  rw [encCo, ← hop, ← hco, ← hz, ← hf, fieldOp, fieldFunct, extract_append_extract w 25 6 1,
    extract_append_extract w 6 7 19, extract_append_extract w 0 26 6, extract_whole]

end

/-! ## A word with a meaning is its encoding -/

section
variable {w : Word32} {i : Instr}

/-- The SPECIAL group: the fields a row does not read are its zero fields (R266). -/
theorem encode_of_decodeSpecial (hop : fieldOp w = 0#6) (h : decodeSpecial w = .instr i) : encode i = w := by
  unfold decodeSpecial at h
  split at h
  case h_1 hf | h_2 hf | h_3 hf | h_47 hf | h_48 hf | h_49 hf | h_50 hf | h_51 hf | h_52 hf =>
    obtain ⟨hrs, rfl⟩ := whenZero_eq_instr.mp h
    exact encR_of_fields hop hrs rfl rfl rfl hf
  case h_4 hf | h_5 hf | h_6 hf | h_16 hf | h_17 hf | h_18 hf | h_27 hf | h_28 hf | h_29 hf | h_30 hf | h_31 hf
    | h_32 hf | h_33 hf | h_34 hf | h_35 hf | h_36 hf | h_37 hf | h_38 hf | h_39 hf | h_40 hf =>
    obtain ⟨hsa, rfl⟩ := whenZero_eq_instr.mp h
    exact encR_of_fields hop rfl rfl rfl hsa hf
  case h_7 hf | h_13 hf | h_15 hf =>
    obtain ⟨⟨hrt, hrd, hsa⟩, rfl⟩ := whenZero_eq_instr.mp h
    exact encR_of_fields hop rfl hrt hrd hsa hf
  case h_8 hf =>
    obtain ⟨⟨hrt, hsa⟩, rfl⟩ := whenZero_eq_instr.mp h
    exact encR_of_fields hop rfl hrt rfl hsa hf
  case h_11 hf =>
    obtain ⟨⟨hrs, hrt, hrd, hsa⟩, rfl⟩ := whenZero_eq_instr.mp h
    exact encR_of_fields hop hrs hrt hrd hsa hf
  case h_12 hf | h_14 hf =>
    obtain ⟨⟨hrs, hrt, hsa⟩, rfl⟩ := whenZero_eq_instr.mp h
    exact encR_of_fields hop hrs hrt rfl hsa hf
  case h_19 hf | h_20 hf | h_21 hf | h_22 hf | h_23 hf | h_24 hf | h_25 hf | h_26 hf =>
    obtain ⟨⟨hrd, hsa⟩, rfl⟩ := whenZero_eq_instr.mp h
    exact encR_of_fields hop rfl rfl hrd hsa hf
  case h_9 hf | h_10 hf =>
    cases h
    exact code20_of_fields hop hf
  case h_41 hf | h_42 hf | h_43 hf | h_44 hf | h_45 hf | h_46 hf =>
    cases h
    exact code10_of_fields hop hf
  case h_53 => cases h

/-- The REGIMM group (R267). -/
theorem encode_of_decodeRegimm (hop : fieldOp w = 1#6) (h : decodeRegimm w = .instr i) : encode i = w := by
  unfold decodeRegimm at h
  split at h
  case h_15 => cases h
  all_goals
    next hrt =>
    cases h
    exact encI_of_fields hop rfl hrt rfl

/-- The COP0 group, by `rs` and by `funct` (R268). -/
theorem encode_of_decodeCop0 (hop : fieldOp w = 0x10#6) (h : decodeCop0 w = .instr i) : encode i = w := by
  unfold decodeCop0 at h
  split at h
  · split at h
    case h_5 => cases h
    all_goals
      next hrs =>
      obtain ⟨hz, rfl⟩ := whenZero_eq_instr.mp h
      exact encCop0_of_fields hop hrs hz
  · next hco =>
    have hco : w.extractLsb' 25 1 = 1#1 := by
      have hbit : ∀ b : BitVec 1, b ≠ 0#1 → b = 1#1 := by decide
      exact hbit _ hco
    split at h
    case h_6 => cases h
    all_goals
      next hf =>
      obtain ⟨hz, rfl⟩ := whenZero_eq_instr.mp h
      exact encCo_of_fields hop hco hz hf

/-- The rows of the primary opcode (R265). -/
theorem encode_of_decode (h : decode w = .instr i) : encode i = w := by
  unfold decode at h
  split at h
  case h_1 hop => exact encode_of_decodeSpecial hop h
  case h_2 hop => exact encode_of_decodeRegimm hop h
  case h_3 hop => exact encode_of_decodeCop0 hop h
  case h_4 hop | h_5 hop | h_18 hop | h_19 hop =>
    cases h
    exact wide_of_fields hop
  case h_8 hop | h_9 hop | h_22 hop | h_23 hop =>
    obtain ⟨hrt, rfl⟩ := whenZero_eq_instr.mp h
    exact encI_of_fields hop rfl hrt rfl
  case h_17 hop =>
    obtain ⟨hrs, rfl⟩ := whenZero_eq_instr.mp h
    exact encI_of_fields hop hrs rfl rfl
  case h_58 => cases h
  all_goals
    next hop =>
    cases h
    exact encI_of_fields hop rfl rfl rfl

end

/-- Settles O6: each row reads the fields that its zero fields leave. -/
theorem encodeDecode : Obligations.EncodeDecode := fun _ _ h => encode_of_decode h

end Sys2Proof
end

section
/-! PROOFS. The words without a meaning (30_encoding.md R265 to R268, R271, R272): the cells of each opcode map that are reserved,
the rows that have a zero field, and what a reserved word does. -/

namespace Sys2Proof

section
variable {w : Word32} {c : Bool}

/-! ## The reserved words (R265 to R268, R271) -/

/-- The cells of the SPECIAL map (R266) are reserved or a row's. -/
theorem funct_reserved_or_row : ∀ f : BitVec 6,
    f ∈ [0x01#6, 0x05#6, 0x0A#6, 0x0B#6, 0x0E#6, 0x15#6, 0x28#6, 0x29#6, 0x35#6, 0x37#6, 0x39#6, 0x3D#6] ∨
    f ∈ [0x00#6, 0x02#6, 0x03#6, 0x04#6, 0x06#6, 0x07#6, 0x08#6, 0x09#6, 0x0C#6, 0x0D#6, 0x0F#6, 0x10#6, 0x11#6, 0x12#6,
      0x13#6, 0x14#6, 0x16#6, 0x17#6, 0x18#6, 0x19#6, 0x1A#6, 0x1B#6, 0x1C#6, 0x1D#6, 0x1E#6, 0x1F#6, 0x20#6, 0x21#6, 0x22#6,
      0x23#6, 0x24#6, 0x25#6, 0x26#6, 0x27#6, 0x2A#6, 0x2B#6, 0x2C#6, 0x2D#6, 0x2E#6, 0x2F#6, 0x30#6, 0x31#6, 0x32#6, 0x33#6,
      0x34#6, 0x36#6, 0x38#6, 0x3A#6, 0x3B#6, 0x3C#6, 0x3E#6, 0x3F#6] := by decide

/-- The cells of the REGIMM map (R267) are reserved or a row's. -/
theorem rt_reserved_or_row : ∀ r : BitVec 5,
    r ∈ [0x04#5, 0x05#5, 0x06#5, 0x07#5, 0x0D#5, 0x0F#5, 0x14#5, 0x15#5, 0x16#5, 0x17#5, 0x18#5, 0x19#5, 0x1A#5, 0x1B#5,
      0x1C#5, 0x1D#5, 0x1E#5, 0x1F#5] ∨
    r ∈ [0x00#5, 0x01#5, 0x02#5, 0x03#5, 0x08#5, 0x09#5, 0x0A#5, 0x0B#5, 0x0C#5, 0x0E#5, 0x10#5, 0x11#5, 0x12#5, 0x13#5] := by
  decide

/-- A bit of a word as a slice. -/
theorem extract_one (x : Word32) (i : Nat) : x.extractLsb' i 1 = BitVec.ofBool (x.getLsbD i) := by
  ext j hj
  have hj0 : j = 0 := by omega
  simp [hj0]

theorem decodeSpecial_eq_reserved : decodeSpecial w = .reserved c ↔ c = false ∧ fieldFunct w ∈
    [0x01#6, 0x05#6, 0x0A#6, 0x0B#6, 0x0E#6, 0x15#6, 0x28#6, 0x29#6, 0x35#6, 0x37#6, 0x39#6, 0x3D#6] := by
  have hcells := funct_reserved_or_row (fieldFunct w)
  unfold decodeSpecial
  split
  case h_53 =>
    have hmem := hcells.resolve_right (by simp_all)
    simp only [Decoded.reserved.injEq, hmem, and_true, eq_comm]
  all_goals
    next hf => simp [hf]

/-- REGIMM has no zero field, and its reserved cells (R267). -/
theorem decodeRegimm_eq_reserved : decodeRegimm w = .reserved c ↔ c = false ∧ fieldRt w ∈
    [0x04#5, 0x05#5, 0x06#5, 0x07#5, 0x0D#5, 0x0F#5, 0x14#5, 0x15#5, 0x16#5, 0x17#5, 0x18#5, 0x19#5, 0x1A#5, 0x1B#5, 0x1C#5,
      0x1D#5, 0x1E#5, 0x1F#5] := by
  have hcells := rt_reserved_or_row (fieldRt w)
  unfold decodeRegimm
  split
  case h_15 =>
    have hmem := hcells.resolve_right (by simp_all)
    simp only [Decoded.reserved.injEq, hmem, and_true, eq_comm]
  all_goals
    next hrt => simp [hrt]

/-- Which of the two maps of the COP0 group a word is looked up in (R268). -/
theorem extract_co_eq_zero : w.extractLsb' 25 1 = 0#1 ↔ w.getLsbD 25 = false := by
  rw [extract_one]
  cases w.getLsbD 25 <;> decide

/-- The reserved cells of the COP0 group, by `rs` or by `funct` (R268). -/
theorem decodeCop0_eq_reserved : decodeCop0 w = .reserved c ↔ c = true ∧
    ((w.getLsbD 25 = false ∧ fieldRs w ∉ [0x00#5, 0x01#5, 0x04#5, 0x05#5]) ∨
     (w.getLsbD 25 = true ∧ fieldFunct w ∉ [0x01#6, 0x02#6, 0x06#6, 0x08#6, 0x18#6])) := by
  unfold decodeCop0
  split
  · next hco =>
    have hco := extract_co_eq_zero.mp hco
    rw [hco]
    split
    case h_5 => cases c <;> simp_all
    all_goals
      next hrs => simp [hrs]
  · next hco =>
    have hco : w.getLsbD 25 = true := by simpa using mt extract_co_eq_zero.mpr hco
    rw [hco]
    split
    case h_6 => cases c <;> simp_all
    all_goals
      next hf => simp [hf]

/-- The reserved cells of the primary opcode (R265). -/
theorem op_reserved_or_row : ∀ op : BitVec 6,
    op ∈ [0x13#6, 0x1C#6, 0x1D#6, 0x1E#6, 0x1F#6, 0x33#6, 0x3B#6] ∨
    op ∈ [0x00#6, 0x01#6, 0x02#6, 0x03#6, 0x04#6, 0x05#6, 0x06#6, 0x07#6, 0x08#6, 0x09#6, 0x0A#6, 0x0B#6, 0x0C#6, 0x0D#6,
      0x0E#6, 0x0F#6, 0x10#6, 0x11#6, 0x12#6, 0x14#6, 0x15#6, 0x16#6, 0x17#6, 0x18#6, 0x19#6, 0x1A#6, 0x1B#6, 0x20#6, 0x21#6,
      0x22#6, 0x23#6, 0x24#6, 0x25#6, 0x26#6, 0x27#6, 0x28#6, 0x29#6, 0x2A#6, 0x2B#6, 0x2C#6, 0x2D#6, 0x2E#6, 0x2F#6, 0x30#6,
      0x31#6, 0x32#6, 0x34#6, 0x35#6, 0x36#6, 0x37#6, 0x38#6, 0x39#6, 0x3A#6, 0x3C#6, 0x3D#6, 0x3E#6, 0x3F#6] := by decide

/-- A word is reserved by its primary opcode or in its group. -/
theorem decode_eq_reserved : decode w = .reserved c ↔
    (c = false ∧ fieldOp w ∈ [0x13#6, 0x1C#6, 0x1D#6, 0x1E#6, 0x1F#6, 0x33#6, 0x3B#6]) ∨
    (fieldOp w = 0x00#6 ∧ decodeSpecial w = .reserved c) ∨ (fieldOp w = 0x01#6 ∧ decodeRegimm w = .reserved c) ∨
    (fieldOp w = 0x10#6 ∧ decodeCop0 w = .reserved c) := by
  have hcells := op_reserved_or_row (fieldOp w)
  unfold decode
  split
  case h_58 =>
    have hmem := hcells.resolve_right (by simp_all)
    cases c <;> simp_all
  all_goals
    next hop => simp [hop]

theorem decode_eq_reserved_iff : decode w = .reserved c ↔ Machine.ReservedWord w c := by
  rw [decode_eq_reserved, decodeSpecial_eq_reserved, decodeRegimm_eq_reserved, decodeCop0_eq_reserved]
  cases c with
  | false => simp only [Machine.ReservedWord, fieldOp, fieldFunct, fieldRt, fieldRs, true_and, reduceCtorEq, false_and, and_false, or_false]
  | true => simp only [Machine.ReservedWord, fieldOp, fieldFunct, fieldRt, fieldRs, true_and, reduceCtorEq, false_and, and_false, false_or]

/-! ## The must-be-zero violations (R272) -/

/-- The rows of the SPECIAL map with zero fields. -/
theorem decodeSpecial_eq_mustBeZero : decodeSpecial w = .mustBeZero ↔
    (fieldFunct w ∈ [0x20#6, 0x21#6, 0x22#6, 0x23#6, 0x24#6, 0x25#6, 0x26#6, 0x27#6, 0x2A#6, 0x2B#6, 0x2C#6, 0x2D#6, 0x2E#6,
        0x2F#6, 0x04#6, 0x06#6, 0x07#6, 0x14#6, 0x16#6, 0x17#6] ∧ fieldSa w ≠ 0#5) ∨
     (fieldFunct w ∈ [0x00#6, 0x02#6, 0x03#6, 0x38#6, 0x3A#6, 0x3B#6, 0x3C#6, 0x3E#6, 0x3F#6] ∧ fieldRs w ≠ 0#5) ∨
     (fieldFunct w ∈ [0x18#6, 0x19#6, 0x1A#6, 0x1B#6, 0x1C#6, 0x1D#6, 0x1E#6, 0x1F#6] ∧ (fieldRd w ≠ 0#5 ∨ fieldSa w ≠ 0#5)) ∨
     (fieldFunct w ∈ [0x10#6, 0x12#6] ∧ (fieldRs w ≠ 0#5 ∨ fieldRt w ≠ 0#5 ∨ fieldSa w ≠ 0#5)) ∨
     (fieldFunct w ∈ [0x08#6, 0x11#6, 0x13#6] ∧ (fieldRt w ≠ 0#5 ∨ fieldRd w ≠ 0#5 ∨ fieldSa w ≠ 0#5)) ∨
     (fieldFunct w = 0x09#6 ∧ (fieldRt w ≠ 0#5 ∨ fieldSa w ≠ 0#5)) ∨
     (fieldFunct w = 0x0F#6 ∧ (fieldRs w ≠ 0#5 ∨ fieldRt w ≠ 0#5 ∨ fieldRd w ≠ 0#5 ∨ fieldSa w ≠ 0#5)) := by
  unfold decodeSpecial
  split
  case h_53 => simp_all
  all_goals
    next hf => simp [hf, Decidable.not_and_iff_not_or_not, -not_and]

/-- REGIMM has no zero field (R267). -/
theorem decodeRegimm_ne_mustBeZero : decodeRegimm w ≠ .mustBeZero := by
  unfold decodeRegimm
  split <;> nofun

/-- The zero fields of the COP0 group (R268). -/
theorem decodeCop0_eq_mustBeZero : decodeCop0 w = .mustBeZero ↔
    (w.getLsbD 25 = false ∧ fieldRs w ∈ [0x00#5, 0x01#5, 0x04#5, 0x05#5] ∧ w.extractLsb' 0 11 ≠ 0#11) ∨
    (w.getLsbD 25 = true ∧ fieldFunct w ∈ [0x01#6, 0x02#6, 0x06#6, 0x08#6, 0x18#6] ∧ w.extractLsb' 6 19 ≠ 0#19) := by
  unfold decodeCop0
  split
  · next hco =>
    have hco := extract_co_eq_zero.mp hco
    rw [hco]
    split
    case h_5 => simp_all
    all_goals
      next hrs => simp [hrs]
  · next hco =>
    have hco : w.getLsbD 25 = true := by simpa using mt extract_co_eq_zero.mpr hco
    rw [hco]
    split
    case h_6 => simp_all
    all_goals
      next hf => simp [hf]

/-- A word violates a zero field of its row by the primary opcode or in its group. -/
theorem decode_eq_mustBeZero : decode w = .mustBeZero ↔
    (fieldOp w = 0x00#6 ∧ decodeSpecial w = .mustBeZero) ∨ (fieldOp w = 0x0F#6 ∧ fieldRs w ≠ 0#5) ∨
    (fieldOp w ∈ [0x06#6, 0x07#6, 0x16#6, 0x17#6] ∧ fieldRt w ≠ 0#5) ∨
    (fieldOp w = 0x10#6 ∧ decodeCop0 w = .mustBeZero) := by
  unfold decode
  split
  case h_2 hop => simp [hop, decodeRegimm_ne_mustBeZero]
  case h_58 => simp_all
  all_goals
    next hop => simp [hop]

theorem decode_eq_mustBeZero_iff : decode w = .mustBeZero ↔ Machine.ZeroFieldWord w := by
  rw [decode_eq_mustBeZero, decodeSpecial_eq_mustBeZero, decodeCop0_eq_mustBeZero]
  rfl

end

end Sys2Proof

namespace Sys2Proof.Machine

/-! ## What a reserved word does (R271, R570) -/

theorem reservedOut_of_raiseRI {s : State} (h : s.params.reservedPolicy = .raiseRI) :
    execDecoded (.reserved false) s = .next (takeException .reserved s) ∧
    (cp0Usable s.cp0.status = true → execDecoded (.reserved true) s = .next (takeException .reserved s)) := by
  simp +contextual [execDecoded, reservedOut, h, withCp0, finish]

theorem reservedOut_of_refuse {s : State} (h : s.params.reservedPolicy = .refuse) :
    execDecoded (.reserved false) s = .refused .reservedEncoding ∧
    (cp0Usable s.cp0.status = true → execDecoded (.reserved true) s = .refused .reservedEncoding) := by
  simp +contextual [execDecoded, reservedOut, h, withCp0, finish, ExResult.refuse]

/-- Settles O3: the cells of the maps, and the two policies for a reserved word. -/
theorem reservedAndZeroFieldWords : Obligations.ReservedAndZeroFieldWords :=
  ⟨fun _ _ => decode_eq_reserved_iff, fun _ => decode_eq_mustBeZero_iff, fun _ =>
    ⟨reservedOut_of_raiseRI, reservedOut_of_refuse, execDecoded_reservedCop0_unusable, rfl⟩⟩

/-- Settles O4: each word is decoded by its own cell. -/
theorem decodesWrittenWords : Obligations.DecodesWrittenWords :=
  ⟨rfl, rfl, rfl, rfl, rfl, rfl, rfl, rfl, rfl, rfl, rfl, rfl, rfl⟩

end Sys2Proof.Machine
end

section
/-! PROOFS. The add, subtract, compare, logical and shift instructions (40_alu.md R300 to R364). The EX stage of each is a result,
an overflow or a refusal; what is left are the results as integers. -/

namespace Sys2Proof.Machine

/-! ## An instruction whose EX stage is known -/

section
variable {i : Instr} {s : State}

/-- An instruction whose EX stage is a result (R300). -/
theorem completes_resultFor {rd : RegNo} {v w : Word} (hex : exOf i s = resultFor rd v s) (hv : v = w) :
    Completes i s (GprOnly s · rd w) := by
  unfold Completes
  rw [exec_eq_finish, hex, hv]
  exact gprOnly_resultFor rd w s

/-- An instruction whose EX stage refuses. -/
theorem refuses_of_exOf_stop {r : Refusal} (hex : exOf i s = .stop r) : Refuses i s r := by
  unfold Refuses
  rw [exec_eq_finish, hex, finish_stop]

/-! ## The comparisons (R330 to R333) -/

theorem boolWord_slt (a b : Word) : boolWord (a.slt b) = if a.toInt < b.toInt then 1#64 else 0#64 := by
  simp [boolWord, BitVec.slt]

theorem boolWord_ult (a b : Word) : boolWord (a.ult b) = if a.toNat < b.toNat then 1#64 else 0#64 := by
  simp [boolWord, BitVec.ult]

/-- Settles O11: each EX stage is a result. -/
theorem wordAndLogicalResults : Obligations.WordAndLogicalResults := by
  intro s rd rs rt imm
  refine ⟨completes_resultFor rfl rfl, completes_resultFor rfl rfl, completes_resultFor rfl (boolWord_slt _ _),
    completes_resultFor rfl (boolWord_ult _ _), completes_resultFor rfl rfl, completes_resultFor rfl rfl,
    completes_resultFor rfl rfl, completes_resultFor rfl rfl, completes_resultFor rfl rfl, completes_resultFor rfl ?_,
    completes_resultFor rfl ?_, completes_resultFor rfl ?_, completes_resultFor rfl ?_, completes_resultFor rfl ?_,
    completes_resultFor rfl (luiValue_eq_ofInt imm)⟩
  · rw [boolWord_slt, sextImm_toInt]
  · rw [boolWord_ult, sextImm_eq_ofInt]
  · rw [zextImm_eq_ofNat]
  · rw [zextImm_eq_ofNat]
  · rw [zextImm_eq_ofNat]

/-! ## The trapping word forms (R302, R304, R310, R312, R314) -/

/-- Sign-extended words with a result that fits: the exact integer. -/
theorem trapping32_fits {rd : RegNo} {a b : Word} {t : Int} (ha : sx32 a = true) (hb : sx32 b = true)
    (ht : -(2 ^ 31) ≤ t ∧ t < 2 ^ 31) : trapping32 rd a b t s = resultFor rd (BitVec.ofInt 64 t) s := by
  have ht := (fits32_iff t).mpr ht
  simp [trapping32, ha, hb, ht, sext64_ofInt ht]

/-- Sign-extended words with a result that does not fit: Overflow. -/
theorem trapping32_overflow {rd : RegNo} {a b : Word} {t : Int} (ha : sx32 a = true) (hb : sx32 b = true)
    (ht : ¬ (-(2 ^ 31) ≤ t ∧ t < 2 ^ 31)) : trapping32 rd a b t s = .raise .overflow s := by
  have ht : fits32 t = false := Bool.eq_false_iff.mpr (mt (fits32_iff t).mp ht)
  simp [trapping32, ha, hb, ht]

theorem trapping32_refused {rd : RegNo} {a b : Word} {t : Int} (h : sx32 a = false ∨ sx32 b = false) :
    trapping32 rd a b t s = .stop .nonSignExtendedWord := by
  rcases h with h | h <;> simp [trapping32, h, ExResult.refuse]

/-- A trapping word form of sign-extended operands completes with the exact result or takes Overflow. -/
theorem trapping32_outcomes {rd : RegNo} {a b : Word} {t u : Int} (hex : exOf i s = trapping32 rd a b t s)
    (ha : sx32 a = true) (hb : sx32 b = true) (htu : t = u) :
    ((-(2 ^ 31) ≤ u ∧ u < 2 ^ 31) → Completes i s (GprOnly s · rd (BitVec.ofInt 64 u))) ∧
    (¬ (-(2 ^ 31) ≤ u ∧ u < 2 ^ 31) → Takes i s .overflow) := by
  subst htu
  exact ⟨fun ht => completes_resultFor (hex.trans (trapping32_fits ha hb ht)) rfl,
    fun ht => takes_of_exOf_raise (hex.trans (trapping32_overflow ha hb ht))⟩

/-- Settles O12: the sum of the low words is that of the sign-extended words. -/
theorem trappingWordResults : Obligations.TrappingWordResults := by
  intro s rd rs rt imm
  refine ⟨fun ha hb => ?_, fun ha => ?_, fun ha => ?_, fun h => ?_⟩
  · obtain ⟨hadd, haddOv⟩ := trapping32_outcomes (i := .add rd rs rt) (s := s) rfl ha hb
      (by rw [lo32_toInt ha, lo32_toInt hb])
    obtain ⟨hsub, hsubOv⟩ := trapping32_outcomes (i := .sub rd rs rt) (s := s) rfl ha hb
      (by rw [lo32_toInt ha, lo32_toInt hb])
    exact ⟨hadd, haddOv, hsub, hsubOv⟩
  · exact trapping32_outcomes rfl ha (sx32_sextImm imm)
      (by rw [lo32_toInt ha, lo32_toInt (sx32_sextImm imm), sextImm_toInt])
  · exact refuses_of_exOf_stop (trapping32_refused (.inl ha))
  · exact ⟨refuses_of_exOf_stop (trapping32_refused h), refuses_of_exOf_stop (trapping32_refused h)⟩

/-! ## The doubleword forms (R304, R316 to R321) -/

/-- A trapping doubleword form, where 64-bit operations are allowed, completes with the exact result or takes Overflow. -/
theorem trapping64_outcomes {rd : RegNo} {t : Int} (hex : exOf i s = withOps64 s (trapping64 rd t s))
    (h64 : ops64Allowed s.cp0.status = true) :
    ((-(2 ^ 63) ≤ t ∧ t < 2 ^ 63) → Completes i s (GprOnly s · rd (BitVec.ofInt 64 t))) ∧
    (¬ (-(2 ^ 63) ≤ t ∧ t < 2 ^ 63) → Takes i s .overflow) := by
  rw [withOps64_allowed _ h64, trapping64] at hex
  refine ⟨fun ht => completes_resultFor (hex.trans (if_pos ((fits64_iff t).mpr ht))) rfl, fun ht => ?_⟩
  exact takes_of_exOf_raise (hex.trans (if_neg (mt (fits64_iff t).mp ht)))

/-- A 64-bit result, where 64-bit operations are allowed. -/
theorem completes_resultFor64 {rd : RegNo} {v w : Word} (h64 : ops64Allowed s.cp0.status = true)
    (hex : exOf i s = withOps64 s (resultFor rd v s)) (hv : v = w) : Completes i s (GprOnly s · rd w) :=
  completes_resultFor (hex.trans (withOps64_allowed _ h64)) hv

/-- Settles O13: a sum modulo 2^64 is the doubleword of the integer sum. -/
theorem doublewordArithmeticResults : Obligations.DoublewordArithmeticResults := by
  intro s rd rs rt imm h64
  obtain ⟨hadd, haddOv⟩ := trapping64_outcomes (i := .dadd rd rs rt) rfl h64
  obtain ⟨hsub, hsubOv⟩ := trapping64_outcomes (i := .dsub rd rs rt) rfl h64
  obtain ⟨haddi, haddiOv⟩ := trapping64_outcomes (i := .daddi rd rs imm) rfl h64
  refine ⟨hadd, haddOv, hsub, hsubOv, haddi, haddiOv, completes_resultFor64 h64 rfl ?_, completes_resultFor64 h64 rfl ?_,
    completes_resultFor64 h64 rfl ?_⟩
  · rw [BitVec.ofInt_add, BitVec.ofInt_toInt, BitVec.ofInt_toInt]
  · exact BitVec.eq_of_toInt_eq (by rw [BitVec.toInt_sub, BitVec.toInt_ofInt])
  · rw [BitVec.ofInt_add, BitVec.ofInt_toInt, sextImm_eq_ofInt]

/-! ## The word shifts (R302, R350 to R355) -/

/-- A right word shift of a sign-extended word. -/
theorem completes_shiftRight32 {rd : RegNo} {v w : Word} {r : Word32} (hex : exOf i s = shiftRight32 rd v r s)
    (hv : sx32 v = true) (hr : sext64 r = w) : Completes i s (GprOnly s · rd w) :=
  completes_resultFor (hex.trans (if_pos hv)) hr

/-- A right word shift of another value is refused (R302). -/
theorem refuses_shiftRight32 {rd : RegNo} {v : Word} {r : Word32} (hex : exOf i s = shiftRight32 rd v r s)
    (hv : sx32 v = false) : Refuses i s .nonSignExtendedWord :=
  refuses_of_exOf_stop (hex.trans (if_neg (by rw [hv]; nofun)))

/-- An arithmetic right shift of a sign-extended word is the floor division. -/
theorem sext64_sshiftRight {v : Word} (h : sx32 v = true) (n : Nat) :
    sext64 ((lo32 v).sshiftRight n) = BitVec.ofInt 64 (v.toInt / 2 ^ n) := by
  rw [sext64_eq_ofInt, BitVec.toInt_sshiftRight, lo32_toInt h, Int.shiftRight_eq_div_pow]
  rfl

/-- Settles O14: the left shifts are results, the right shifts results of a sign-extended word. -/
theorem wordShiftResults : Obligations.WordShiftResults := by
  intro s rd rt rs sa
  refine ⟨completes_resultFor rfl rfl, completes_resultFor rfl rfl, fun hv => ⟨?_, ?_, ?_, ?_⟩, fun hv => ⟨?_, ?_, ?_, ?_⟩⟩
  · exact completes_shiftRight32 rfl hv rfl
  · exact completes_shiftRight32 rfl hv rfl
  · exact completes_shiftRight32 rfl hv (sext64_sshiftRight hv _)
  · exact completes_shiftRight32 rfl hv (sext64_sshiftRight hv _)
  · exact refuses_shiftRight32 rfl hv
  · exact refuses_shiftRight32 rfl hv
  · exact refuses_shiftRight32 rfl hv
  · exact refuses_shiftRight32 rfl hv

/-! ## The doubleword shifts (R356 to R364) -/

theorem shiftLeft_eq_ofNat (v : Word) (k : Nat) : v <<< k = BitVec.ofNat 64 (v.toNat * 2 ^ k) := by
  apply BitVec.eq_of_toNat_eq
  rw [BitVec.toNat_shiftLeft, BitVec.toNat_ofNat, Nat.shiftLeft_eq]

theorem ushiftRight_eq_ofNat (v : Word) (k : Nat) : v >>> k = BitVec.ofNat 64 (v.toNat / 2 ^ k) := by
  apply BitVec.eq_of_toNat_eq
  rw [BitVec.toNat_ushiftRight, BitVec.toNat_ofNat, Nat.shiftRight_eq_div_pow,
    Nat.mod_eq_of_lt (Nat.lt_of_le_of_lt (Nat.div_le_self _ _) v.isLt)]

theorem sshiftRight_eq_ofInt (v : Word) (k : Nat) : v.sshiftRight k = BitVec.ofInt 64 (v.toInt / 2 ^ k) := by
  rw [BitVec.sshiftRight, Int.shiftRight_eq_div_pow]
  rfl

/-- Settles O15: a shift is the product, the quotient or the floor quotient by a power of two. -/
theorem doublewordShiftResults : Obligations.DoublewordShiftResults := by
  intro s rd rt rs sa h64
  exact ⟨completes_resultFor64 h64 rfl (shiftLeft_eq_ofNat _ _), completes_resultFor64 h64 rfl (ushiftRight_eq_ofNat _ _),
    completes_resultFor64 h64 rfl (sshiftRight_eq_ofInt _ _), completes_resultFor64 h64 rfl (shiftLeft_eq_ofNat _ _),
    completes_resultFor64 h64 rfl (ushiftRight_eq_ofNat _ _), completes_resultFor64 h64 rfl (sshiftRight_eq_ofInt _ _),
    completes_resultFor64 h64 rfl (shiftLeft_eq_ofNat _ _), completes_resultFor64 h64 rfl (ushiftRight_eq_ofNat _ _),
    completes_resultFor64 h64 rfl (sshiftRight_eq_ofInt _ _)⟩

end

end Sys2Proof.Machine
end

section
/-! PROOFS. Multiplication, division and the moves of HI and LO (41_muldiv.md R400 to R433, 70_reset_and_hazards.md R768). The
EX stage of each is a write of HI and LO, so what is left are its two words as integers. -/

namespace Sys2Proof.Machine

section
variable {i : Instr} {s : State}

/-! ## A write of HI and LO -/

/-- An instruction whose EX stage writes HI and LO outside the window (R400, R768). -/
theorem completes_writeHiLo {hi lo hi' lo' : Word} (hfree : HiLoFree s) (hex : exOf i s = writeHiLo hi lo s)
    (hhi : hi = hi') (hlo : lo = lo') : Completes i s (HiLoOnly s · hi' lo') := by
  unfold Completes
  rw [exec_eq_finish, hex, hhi, hlo]
  exact hiLoOnly_writeHiLo hi' lo' hfree rfl

/-- A write of HI and LO inside the window is refused (R768). -/
theorem writeHiLo_refused (hi lo : Word) (hp : s.params.hiloHazard = .refuse) (ha : s.hz.hiloAge ≤ 2) :
    writeHiLo hi lo s = .stop .hiloHazard := if_pos ⟨hp, ha⟩

/-- A word multiply or divide refuses an operand that is not sign-extended (R401). -/
theorem refuses_withWords {rs rt : RegNo} {k : ExResult} (hex : exOf i s = withWords rs rt s k)
    (h : sx32 (s.readReg rs) = false ∨ sx32 (s.readReg rt) = false) : Refuses i s .nonSignExtendedWord := by
  refine refuses_of_exOf_stop (hex.trans (if_neg ?_))
  rcases h with h | h <;> simp [h]

/-! ## The halves of a product (R410 to R413) -/

/-- The word halves of an integer cut to 64 bits. -/
theorem halves32_ofInt (p : Int) : (BitVec.ofInt 64 p).extractLsb' 32 32 = BitVec.ofInt 32 (p / 2 ^ 32) ∧
    (BitVec.ofInt 64 p).extractLsb' 0 32 = BitVec.ofInt 32 p := by
  constructor <;> apply BitVec.eq_of_toNat_eq <;>
    simp only [BitVec.extractLsb'_toNat, BitVec.toNat_ofInt, Nat.shiftRight_eq_div_pow] <;> omega

/-- The doubleword halves of an integer cut to 128 bits. -/
theorem halves64_ofInt (p : Int) : (BitVec.ofInt 128 p).extractLsb' 64 64 = BitVec.ofInt 64 (p / 2 ^ 64) ∧
    (BitVec.ofInt 128 p).extractLsb' 0 64 = BitVec.ofInt 64 p := by
  constructor <;> apply BitVec.eq_of_toNat_eq <;>
    simp only [BitVec.extractLsb'_toNat, BitVec.toNat_ofInt, Nat.shiftRight_eq_div_pow] <;> omega

/-- A word product outside the window leaves its halves, each sign-extended (R401, R410). -/
theorem completes_writeHiLo32 {p : Int} {x : BitVec 64} (hfree : HiLoFree s) (hex : exOf i s = writeHiLo32 x s)
    (hx : x = BitVec.ofInt 64 p) :
    Completes i s (HiLoOnly s · (BitVec.signExtend 64 (BitVec.ofInt 32 (p / 2 ^ 32)))
      (BitVec.signExtend 64 (BitVec.ofInt 32 p))) := by
  obtain ⟨hhi, hlo⟩ := halves32_ofInt p
  exact completes_writeHiLo hfree hex (by rw [hx, hhi]) (by rw [hx, hlo])

/-- A doubleword product outside the window leaves its halves (R412). -/
theorem completes_writeHiLo64 {p : Int} {x : BitVec 128} (hfree : HiLoFree s) (hex : exOf i s = writeHiLo64 x s)
    (hx : x = BitVec.ofInt 128 p) : Completes i s (HiLoOnly s · (BitVec.ofInt 64 (p / 2 ^ 64)) (BitVec.ofInt 64 p)) := by
  obtain ⟨hhi, hlo⟩ := halves64_ofInt p
  exact completes_writeHiLo hfree hex (by rw [hx, hhi]) (by rw [hx, hlo])

theorem lo32_toNat (v : Word) : (lo32 v).toNat = v.toNat % 2 ^ 32 := BitVec.toNat_setWidth 32 v

/-- The quotient and the remainder of the low words, as words (R421). -/
theorem lo32_div_mod (a b : Word) :
    lo32 a / lo32 b = BitVec.ofInt 32 (a.toNat % 2 ^ 32 / (b.toNat % 2 ^ 32) : Nat) ∧
    lo32 a % lo32 b = BitVec.ofInt 32 (a.toNat % 2 ^ 32 % (b.toNat % 2 ^ 32) : Nat) := by
  rw [BitVec.ofInt_natCast, BitVec.ofInt_natCast, ← lo32_toNat, ← lo32_toNat, ← BitVec.toNat_udiv, ← BitVec.toNat_umod,
    BitVec.ofNat_toNat, BitVec.ofNat_toNat, BitVec.setWidth_eq, BitVec.setWidth_eq]
  exact ⟨rfl, rfl⟩

/-- What the signed divides of R403 ask of quotient and remainder: truncation toward zero, the remainder with the sign of the
dividend. -/
theorem signedParts_tdiv_tmod (n : Int) {d : Int} (hd : d ≠ 0) :
    n = n.tdiv d * d + n.tmod d ∧ (n.tmod d).natAbs < d.natAbs ∧ (n.tmod d = 0 ∨ (0 < n.tmod d ↔ 0 < n)) ∧
      (0 ≤ n → 0 ≤ n.tmod d) ∧ (n ≤ 0 → n.tmod d ≤ 0) := by
  have hpos : 0 ≤ n → 0 ≤ n.tmod d := Int.tmod_nonneg d
  have hneg : n ≤ 0 → n.tmod d ≤ 0 := fun h => by
    have := Int.tmod_nonneg d (Int.neg_nonneg_of_nonpos h)
    rw [Int.neg_tmod] at this
    omega
  refine ⟨(Int.tdiv_mul_add_tmod n d).symm, ?_, by omega, hpos, hneg⟩
  rw [Int.natAbs_tmod]
  exact Nat.mod_lt _ (Int.natAbs_pos.mpr hd)

/-- A value whose low word is not 0 is not 0 as an integer. -/
theorem toInt_ne_zero_of_lo32 {b : Word} (h : lo32 b ≠ 0#32) : b.toInt ≠ 0 := fun h0 => h (by
  have hb : b = 0#64 := BitVec.eq_of_toInt_eq h0
  rw [hb]
  rfl)

end

/-- Settles O16: the halves of the product of the operands' integers. -/
theorem multiplyResults : Obligations.MultiplyResults := by
  intro s rs rt hfree
  refine ⟨fun ha hb => ⟨?_, ?_⟩, fun h => ⟨refuses_withWords rfl h, refuses_withWords rfl h⟩, fun h64 => ⟨?_, ?_⟩⟩
  · exact completes_writeHiLo32 hfree (withWords_sx32 _ ha hb) (by rw [lo32_toInt ha, lo32_toInt hb])
  · exact completes_writeHiLo32 hfree (withWords_sx32 _ ha hb)
      (by rw [lo32_toNat, lo32_toNat, BitVec.ofInt_natCast])
  · exact completes_writeHiLo64 hfree (withOps64_allowed _ h64) rfl
  · exact completes_writeHiLo64 hfree (withOps64_allowed _ h64) (BitVec.ofInt_natCast ..).symm

/-- Settles O17: the signed divides truncate, the unsigned ones divide the natural numbers. -/
theorem divideResults : Obligations.DivideResults := by
  intro s rs rt hfree
  refine ⟨fun ha hb h0 => ⟨?_, ?_⟩, fun h => ⟨refuses_withWords rfl h, refuses_withWords rfl h⟩, fun h64 h0 => ⟨?_, ?_⟩⟩
  · refine ⟨_, _, signedParts_tdiv_tmod _ (toInt_ne_zero_of_lo32 h0), ?_⟩
    refine completes_writeHiLo hfree ((withWords_sx32 _ ha hb).trans (if_neg h0)) ?_ ?_ <;>
      rw [lo32_toInt ha, lo32_toInt hb]
  · obtain ⟨hq, hr⟩ := lo32_div_mod (s.readReg rs) (s.readReg rt)
    exact completes_writeHiLo hfree ((withWords_sx32 _ ha hb).trans (if_neg h0)) (by rw [hr]) (by rw [hq])
  · have hd : (s.readReg rt).toInt ≠ 0 := fun h => h0 (BitVec.eq_of_toInt_eq h)
    exact ⟨_, _, signedParts_tdiv_tmod _ hd,
      completes_writeHiLo hfree ((withOps64_allowed _ h64).trans (if_neg h0)) rfl rfl⟩
  · refine completes_writeHiLo hfree ((withOps64_allowed _ h64).trans (if_neg h0)) ?_ ?_
    · rw [← BitVec.toNat_umod, BitVec.ofNat_toNat, BitVec.setWidth_eq]
    · rw [← BitVec.toNat_udiv, BitVec.ofNat_toNat, BitVec.setWidth_eq]

/-! ## The moves and the window (R430 to R433, R560, R768) -/

/-- MFHI and MFLO give the value and open the window, the instruction itself counting as the first behind it (log entry 8). -/
theorem completes_readHiLo {i : Instr} {s : State} {rd : RegNo} {v : Word} (hex : exOf i s = readHiLo rd v s) :
    Completes i s (fun t => GprOnly s t rd v ∧ t.hz.hiloAge = 1) := by
  unfold Completes
  rw [exec_eq_finish, hex]
  let u : State := { s with hz := { s.hz with hiloAge := 0 } }
  have hres := results_writeBack u rd v .seq
  have hrest := sameRest_writeBack u rd v none false .seq
  have hmem := sameMemory_writeBack u rd v none false .seq
  have hseq := sequential_writeBack u rd v none false
  exact ⟨_, finish_ok s rfl, ⟨{ hres with }, { hrest with }, { hmem with }, hseq.of_eq rfl rfl⟩, by simp [Hazards.retire]⟩

/-- Every word multiply and divide of sign-extended operands is refused in the window. -/
theorem refuses_word_hiloHazard {s : State} {rs rt : RegNo} (hp : s.params.hiloHazard = .refuse) (ha : s.hz.hiloAge ≤ 2)
    (hs : sx32 (s.readReg rs) = true) (ht : sx32 (s.readReg rt) = true) :
    ∀ i ∈ [Instr.mult rs rt, .multu rs rt, .div rs rt, .divu rs rt], Refuses i s .hiloHazard := by
  have hno (hi lo : Word) : writeHiLo hi lo s = .stop .hiloHazard := writeHiLo_refused hi lo hp ha
  have hzero : divideByZero s = .stop .hiloHazard := if_pos ⟨hp, ha⟩
  have hword {i : Instr} {k : ExResult} (hex : exOf i s = withWords rs rt s k) (hk : k = .stop .hiloHazard) :
      Refuses i s .hiloHazard := refuses_of_exOf_stop ((hex.trans (withWords_sx32 k hs ht)).trans hk)
  simp only [List.forall_mem_cons, List.not_mem_nil, false_imp_iff, implies_true, and_true]
  exact ⟨hword rfl (hno _ _), hword rfl (hno _ _), hword rfl (by simp only [hzero, hno, ite_self]),
    hword rfl (by simp only [hzero, hno, ite_self])⟩

/-- Every doubleword multiply and divide is refused in the window, where 64-bit operations are allowed. -/
theorem refuses_double_hiloHazard {s : State} {rs rt : RegNo} (hp : s.params.hiloHazard = .refuse) (ha : s.hz.hiloAge ≤ 2)
    (h64 : ops64Allowed s.cp0.status = true) :
    ∀ i ∈ [Instr.dmult rs rt, .dmultu rs rt, .ddiv rs rt, .ddivu rs rt], Refuses i s .hiloHazard := by
  have hno (hi lo : Word) : writeHiLo hi lo s = .stop .hiloHazard := writeHiLo_refused hi lo hp ha
  have hzero : divideByZero s = .stop .hiloHazard := if_pos ⟨hp, ha⟩
  have hdouble {i : Instr} {k : ExResult} (hex : exOf i s = withOps64 s k) (hk : k = .stop .hiloHazard) :
      Refuses i s .hiloHazard := refuses_of_exOf_stop ((hex.trans (withOps64_allowed k h64)).trans hk)
  simp only [List.forall_mem_cons, List.not_mem_nil, false_imp_iff, implies_true, and_true]
  exact ⟨hdouble rfl (hno _ _), hdouble rfl (hno _ _), hdouble rfl (by simp only [hzero, hno, ite_self]),
    hdouble rfl (by simp only [hzero, hno, ite_self])⟩

/-- Settles O19: the moves, the refusals of the window, and how the window moves. -/
theorem hiLoMovesAndSync : Obligations.HiLoMovesAndSync := by
  intro s r q
  refine ⟨completes_resultFor (rd := 0#5) rfl rfl, completes_readHiLo rfl, completes_readHiLo rfl, fun hfree => ⟨?_, ?_⟩,
    fun hp ha => ⟨?_, refuses_word_hiloHazard hp ha, refuses_double_hiloHazard hp ha⟩, fun i t hx hi => hiloAge_exec hi hx⟩
  · exact completes_writeHiLo hfree rfl rfl rfl
  · exact completes_writeHiLo hfree rfl rfl rfl
  · simp only [List.forall_mem_cons, List.not_mem_nil, false_imp_iff, implies_true, and_true]
    exact ⟨refuses_of_exOf_stop (writeHiLo_refused _ _ hp ha), refuses_of_exOf_stop (writeHiLo_refused _ _ hp ha)⟩

end Sys2Proof.Machine
end

section
/-! PROOFS. The 64-bit operations where they are not allowed (30_encoding.md R275), the jumps and branches (42_branch.md R440 to
R477), the traps (44_system.md R605 to R619) and the coprocessors (44_system.md R640, R641). -/

namespace Sys2Proof.Machine

/-! ## Cause after an exception (R650, R670) -/

theorem takeException_excCode (e : Exc) (s : State) : (takeException e s).cp0.cause.extractLsb' 2 5 = e.code :=
  causeAfter_excCode s.cp0 e s.delay.isSome s.drawn

theorem takeException_ce (n : BitVec 2) (s : State) : (takeException (.copUnusable n) s).cp0.cause.extractLsb' 28 2 = n :=
  causeAfter_ce s.cp0 n s.delay.isSome s.drawn

/-! ## 64-bit operations (R16, R275) -/

theorem ops64Allowed_kernel {st : Word32} (h : kernelMode st = true) : ops64Allowed st = true := by simp [ops64Allowed, h]

theorem ops64Allowed_user {st : Word32} (h : userMode st = true) : ops64Allowed st = stUX st := by
  simp only [userMode, Bool.and_eq_true, Bool.not_eq_true', beq_iff_eq] at h
  obtain ⟨hk, hksu⟩ := h
  simp [ops64Allowed, supervisorMode, userMode, hk, hksu]

theorem ops64Allowed_supervisor {st : Word32} (h : supervisorMode st = true) : ops64Allowed st = stSX st := by
  simp only [supervisorMode, Bool.and_eq_true, Bool.not_eq_true', beq_iff_eq] at h
  obtain ⟨hk, hksu⟩ := h
  simp [ops64Allowed, supervisorMode, userMode, hk, hksu]

section
variable {i : Instr} {s : State}

/-- A 64-bit operation where it is not allowed raises RI (R275). -/
theorem withOps64_forbidden (k : ExResult) (h : ops64Allowed s.cp0.status = false) : withOps64 s k = .raise .reserved s :=
  if_neg (by rw [h]; nofun)

theorem takes_reserved_of_exOf {k : ExResult} (h : ops64Allowed s.cp0.status = false) (hex : exOf i s = withOps64 s k) :
    Takes i s .reserved := takes_of_exOf_raise (hex.trans (withOps64_forbidden k h))

end

/-- Settles O20: the check of R275 stands first in each EX stage, behind that of R570 for the CP0 moves. -/
theorem ops64NotAllowed : Obligations.Ops64NotAllowed := by
  refine ⟨fun _ => ops64Allowed_kernel, fun _ => ops64Allowed_user, fun _ => ops64Allowed_supervisor,
    fun s rd rs rt sa imm h => ⟨?_, fun hu => ⟨?_, ?_⟩, fun hu => ⟨?_, ?_⟩⟩⟩
  · have takes {i : Instr} {k : ExResult} (hex : exOf i s = withOps64 s k) := takes_reserved_of_exOf h hex
    simp only [List.forall_mem_cons, List.not_mem_nil, false_imp_iff, implies_true, and_true]
    exact ⟨takes rfl, takes rfl, takes rfl, takes rfl, takes rfl, takes rfl, takes rfl, takes rfl, takes rfl, takes rfl,
      takes rfl, takes rfl, takes rfl, takes rfl, takes rfl, takes rfl, takes rfl, takes rfl, takes rfl, takes rfl, takes rfl,
      takes rfl, takes rfl, takes rfl, takes rfl, takes rfl, takes rfl, takes rfl⟩
  · exact takes_reserved_of_exOf h (withCp0_usable _ hu)
  · exact takes_reserved_of_exOf h (withCp0_usable _ hu)
  · exact takes_copUnusable_of_exOf hu rfl
  · exact takes_copUnusable_of_exOf hu rfl

/-! ## Jumps and branches (R440 to R477) -/

section
variable {i : Instr} {s : State}

/-- An instruction whose EX stage is a branch, outside a delay slot. -/
theorem completes_branchOut {taken taken' likely : Bool} {target target' : Word} {link : RegNo} (hd : s.delay = none)
    (hex : exOf i s = branchOut s taken likely target link) (ht : taken = taken') (htg : target = target') :
    Completes i s (BranchOnly s · link taken' likely target') := by
  unfold Completes
  rw [exec_eq_finish, hex, ht, htg]
  exact branchOnly_branchOut taken' likely target' link hd

/-- A PC-relative branch outside a delay slot. -/
theorem completes_branchTarget {taken taken' likely : Bool} {imm : BitVec 16} {link : RegNo} (hd : s.delay = none)
    (hex : exOf i s = branchOut s taken likely (branchTarget s.pc imm) link) (ht : taken = taken') :
    Completes i s (BranchOnly s · link taken' likely (BitVec.ofInt 64 (s.pc.toInt + 4 + 4 * imm.toInt))) :=
  completes_branchOut hd hex ht (branchTarget_eq_ofInt s.pc imm)

/-- An instruction whose EX stage is a branch is refused in a delay slot (R446). -/
theorem refuses_branchOut {taken likely : Bool} {target : Word} {link : RegNo} {d : DelaySlot} (hd : s.delay = some d)
    (hex : exOf i s = branchOut s taken likely target link) : Refuses i s .branchInDelaySlot := by
  unfold Refuses
  rw [exec_eq_finish, hex]
  exact branchOut_slot taken likely target link (by rw [hd]; rfl)

/-- A linking branch on a register other than 31. -/
theorem linkBranch_of_ne {rs : RegNo} (taken likely : Bool) (imm : BitVec 16) (h : rs ≠ 31#5) :
    linkBranch rs taken likely imm s = branchOut s taken likely (branchTarget s.pc imm) 31#5 := if_neg h

/-- A linking branch on register 31 is refused (R474). -/
theorem refuses_linkBranch {rs : RegNo} {taken likely : Bool} {imm : BitVec 16} (h : rs = 31#5)
    (hex : exOf i s = linkBranch rs taken likely imm s) : Refuses i s .linkBranchReadsR31 :=
  refuses_of_exOf_stop (hex.trans (if_pos h))

/-- The linking branches on register 31 are refused, in a delay slot too (R474 to R477). -/
theorem refuses_linkBranches {rs : RegNo} (imm : BitVec 16) (h : rs = 31#5) :
    ∀ i ∈ [Instr.bltzal rs imm, .bgezal rs imm, .bltzall rs imm, .bgezall rs imm], Refuses i s .linkBranchReadsR31 := by
  simp only [List.forall_mem_cons, List.not_mem_nil, false_imp_iff, implies_true, and_true]
  exact ⟨refuses_linkBranch h rfl, refuses_linkBranch h rfl, refuses_linkBranch h rfl, refuses_linkBranch h rfl⟩

end

/-- The target of J and JAL: the target field as a word address in the region of the delay slot (R441). -/
theorem jumpTarget_eq (pc : Word) (target : BitVec 26) :
    jumpTarget pc target = ((pc + 4#64) &&& ~~~0x0FFFFFFF#64) ||| (target.setWidth 64 <<< 2) := by
  unfold jumpTarget
  generalize pc + 4#64 = slot
  have hlow : ∀ j : Fin 64, (0x0FFFFFFF#64).getLsbD j.val = decide (j.val < 28) := by decide
  apply BitVec.eq_of_getLsbD_eq
  intro j hj
  have hmask := hlow ⟨j, hj⟩
  simp only [BitVec.getLsbD_append, BitVec.getLsbD_extractLsb', BitVec.getLsbD_or, BitVec.getLsbD_and, BitVec.getLsbD_not,
    BitVec.getLsbD_shiftLeft, BitVec.getLsbD_setWidth, BitVec.getLsbD_zero, hmask, hj, decide_true, Bool.true_and]
  by_cases h2 : j < 2
  · simp [h2, show j < 28 by omega]
  · by_cases h28 : j < 28
    · simp [h2, h28, show j - 2 < 26 by omega, show j - 2 < 64 by omega]
    · have hout : target.getLsbD (j - 2) = false := BitVec.getLsbD_of_ge _ _ (by omega)
      simp [h2, h28, hout, show ¬ j - 2 < 26 by omega, show j - 2 - 26 < 36 by omega, show 28 + (j - 2 - 26) = j by omega]

/-- The tests of a register against 0 as integers (R470, R471). -/
theorem not_isNeg_eq (v : Word) : (!isNeg v) = decide (0 ≤ v.toInt) := by
  rw [isNeg_eq, Bool.eq_iff_iff]
  simp

theorem not_isLez_eq (v : Word) : (!isLez v) = decide (0 < v.toInt) := by
  rw [isLez_eq, Bool.eq_iff_iff]
  simp

/-- The comparisons of two registers as integers (R460, R461). -/
theorem beq_eq_toInt (a b : Word) : (a == b) = decide (a.toInt = b.toInt) := by
  simp [BitVec.toInt_inj, Bool.beq_eq_decide_eq]

theorem bne_eq_toInt (a b : Word) : (a != b) = decide (a.toInt ≠ b.toInt) := by
  rw [bne, beq_eq_toInt, ← decide_not]

/-- Settles O21: each is a branch, or the linking branches' refusal. -/
theorem jumpAndLinkResults : Obligations.JumpAndLinkResults := by
  intro s target rd rs imm hd
  refine ⟨completes_branchOut hd rfl rfl (jumpTarget_eq ..), completes_branchOut hd rfl rfl (jumpTarget_eq ..),
    completes_branchOut hd rfl rfl rfl, fun h => completes_branchOut hd (if_neg h) rfl rfl,
    fun h => refuses_of_exOf_stop (if_pos h), fun h => ⟨?_, ?_, ?_, ?_⟩, fun h => ?_⟩
  · exact completes_branchTarget hd (linkBranch_of_ne _ _ _ h) (isNeg_eq _)
  · exact completes_branchTarget hd (linkBranch_of_ne _ _ _ h) (not_isNeg_eq _)
  · exact completes_branchTarget hd (linkBranch_of_ne _ _ _ h) (isNeg_eq _)
  · exact completes_branchTarget hd (linkBranch_of_ne _ _ _ h) (not_isNeg_eq _)
  · exact ⟨refuses_linkBranch h rfl, refuses_linkBranch h rfl, refuses_linkBranch h rfl, refuses_linkBranch h rfl⟩

/-- Settles O22: each is a branch on the condition as integers. -/
theorem conditionalBranchResults : Obligations.ConditionalBranchResults := by
  intro s rs rt imm hd
  exact ⟨completes_branchTarget hd rfl (beq_eq_toInt ..), completes_branchTarget hd rfl (bne_eq_toInt ..),
    completes_branchTarget hd rfl (isLez_eq _), completes_branchTarget hd rfl (not_isLez_eq _),
    completes_branchTarget hd rfl (isNeg_eq _), completes_branchTarget hd rfl (not_isNeg_eq _),
    completes_branchTarget hd rfl (beq_eq_toInt ..), completes_branchTarget hd rfl (bne_eq_toInt ..),
    completes_branchTarget hd rfl (isLez_eq _), completes_branchTarget hd rfl (not_isLez_eq _),
    completes_branchTarget hd rfl (isNeg_eq _), completes_branchTarget hd rfl (not_isNeg_eq _)⟩

/-! ## The CP1 unit's check and branches (R640) -/

section
variable {i : Instr} {s : State}

theorem withCp1_present (k : ExResult) (hcu : s.cp0.status.getLsbD 29 = true) (hp : s.params.cp1Present = true) :
    withCp1 s k = k := by
  have hcu : stCU1 s.cp0.status = true := hcu
  simp [withCp1, hcu, hp]

theorem withCp1_unusable (k : ExResult) (hcu : s.cp0.status.getLsbD 29 = false) :
    withCp1 s k = .raise (.copUnusable 1#2) s := by
  have hcu : stCU1 s.cp0.status = false := hcu
  simp [withCp1, hcu]

theorem withCp1_absent (k : ExResult) (hcu : s.cp0.status.getLsbD 29 = true) (hp : s.params.cp1Present = false) :
    withCp1 s k = .stop .cp1NotModelled := by
  have hcu : stCU1 s.cp0.status = true := hcu
  simp [withCp1, hcu, hp, ExResult.refuse]

/-- The branches on the CP1 condition: `tf` is the value that branches, `nd` makes the branch likely. -/
theorem cop1Out_branch (nd tf : Bool) (imm : BitVec 16) :
    cop1Out (0x08#5 ++ (0#3 ++ BitVec.ofBool nd ++ BitVec.ofBool tf) ++ imm) s =
      branchOut s (s.cp1.cond == tf) nd (branchTarget s.pc imm) 0#5 := by
  have hsub (x : BitVec 5) : (0x08#5 ++ x ++ imm : BitVec 26).extractLsb' 21 5 = 0x08#5 := by
    simp (disch := omega) only [extract_append_high, extract_whole, Nat.reduceSub]
  have hrt (x : BitVec 5) : (0x08#5 ++ x ++ imm : BitVec 26).extractLsb' 16 5 = x := by
    simp (disch := omega) only [extract_append_high, extract_append_low, extract_whole, Nat.reduceSub]
  have himm (x : BitVec 5) : (0x08#5 ++ x ++ imm : BitVec 26).extractLsb' 0 16 = imm := by
    simp (disch := omega) only [extract_append_low, extract_whole]
  unfold cop1Out
  rw [hsub, hrt, himm]
  cases nd <;> cases tf <;> cases s.cp1.cond <;> simp

end

/-- Settles O23: each is a branch in its slot, or refuses for its registers before that. -/
theorem branchInDelaySlotRefused : Obligations.BranchInDelaySlotRefused := by
  intro s d target rd rs rt imm nd tf hd
  have refuses {i : Instr} {taken likely : Bool} {target : Word} {link : RegNo}
      (hex : exOf i s = branchOut s taken likely target link) := refuses_branchOut hd hex
  refine ⟨?_, fun h => refuses (if_neg h), fun h => ?_, fun hu => ?_, fun hcu hp => ?_, fun h => refuses_of_exOf_stop (if_pos h),
    refuses_linkBranches imm⟩
  · simp only [List.forall_mem_cons, List.not_mem_nil, false_imp_iff, implies_true, and_true]
    exact ⟨refuses rfl, refuses rfl, refuses rfl, refuses rfl, refuses rfl, refuses rfl, refuses rfl, refuses rfl,
      refuses rfl, refuses rfl, refuses rfl, refuses rfl, refuses rfl, refuses rfl, refuses rfl⟩
  · simp only [List.forall_mem_cons, List.not_mem_nil, false_imp_iff, implies_true, and_true]
    exact ⟨refuses (linkBranch_of_ne _ _ _ h), refuses (linkBranch_of_ne _ _ _ h), refuses (linkBranch_of_ne _ _ _ h),
      refuses (linkBranch_of_ne _ _ _ h)⟩
  · have heret : eretOut s = .stop .branchInDelaySlot := if_pos (by rw [hd]; rfl)
    exact refuses_of_exOf_stop ((withCp0_usable _ hu).trans heret)
  · exact refuses ((withCp1_present _ hcu hp).trans (cop1Out_branch nd tf imm))

/-! ## The traps (R605 to R619) -/

/-- A trap instruction raises when its comparison holds and has no effect else (R607). -/
theorem trapIf_outcomes {i : Instr} {s : State} {c : Bool} {p : Prop} (hex : exOf i s = trapIf c s) (hc : c = true ↔ p) :
    (p → Takes i s .trap) ∧ (¬ p → Completes i s (GprOnly s · 0#5 0#64)) :=
  ⟨fun h => takes_of_exOf_raise (hex.trans (if_pos (hc.mpr h))),
    fun h => completes_resultFor (hex.trans (if_neg (mt hc.mp h))) rfl⟩

theorem not_slt_iff (a b : Word) : (!a.slt b) = true ↔ b.toInt ≤ a.toInt := by simp [BitVec.slt]

theorem not_ult_iff (a b : Word) : (!a.ult b) = true ↔ b.toNat ≤ a.toNat := by simp [BitVec.ult]

theorem slt_iff (a b : Word) : a.slt b = true ↔ a.toInt < b.toInt := by simp [BitVec.slt]

theorem ult_iff (a b : Word) : a.ult b = true ↔ a.toNat < b.toNat := by simp [BitVec.ult]

theorem beq_iff_toInt (a b : Word) : (a == b) = true ↔ a.toInt = b.toInt := by simp [BitVec.toInt_inj]

theorem bne_iff_toInt (a b : Word) : (a != b) = true ↔ a.toInt ≠ b.toInt := by simp [BitVec.toInt_inj]

/-- Settles O38: the comparisons of the traps as integers and numbers. -/
theorem systemCallAndTrapResults : Obligations.SystemCallAndTrapResults := by
  intro s rs rt code code20 imm
  refine ⟨trapIf_outcomes rfl (not_slt_iff ..), trapIf_outcomes rfl (not_ult_iff ..), trapIf_outcomes rfl (slt_iff ..),
    trapIf_outcomes rfl (ult_iff ..), trapIf_outcomes rfl (beq_iff_toInt ..), trapIf_outcomes rfl (bne_iff_toInt ..),
    trapIf_outcomes rfl ?_, trapIf_outcomes rfl ?_, trapIf_outcomes rfl ?_, trapIf_outcomes rfl ?_, trapIf_outcomes rfl ?_,
    trapIf_outcomes rfl ?_, takeException_excCode .., takes_of_exOf_raise rfl, takes_of_exOf_raise rfl, takeException_excCode ..,
    takeException_excCode ..⟩
  · rw [not_slt_iff, sextImm_toInt]
  · rw [not_ult_iff, sextImm_eq_ofInt]
  · rw [slt_iff, sextImm_toInt]
  · rw [ult_iff, sextImm_eq_ofInt]
  · rw [beq_iff_toInt, sextImm_toInt]
  · rw [bne_iff_toInt, sextImm_toInt]

/-! ## The coprocessors 1 and 2 (R640, R641) -/

/-- An instruction of the CP1 group (R640). -/
theorem cp1_outcomes {i : Instr} {s : State} {k : ExResult} (hex : exOf i s = withCp1 s k) :
    (s.cp0.status.getLsbD 29 = false → Takes i s (.copUnusable 1#2) ∧
      (takeException (.copUnusable 1#2) s).cp0.cause.extractLsb' 28 2 = 1#2) ∧
    (s.cp0.status.getLsbD 29 = true → s.params.cp1Present = false → Refuses i s .cp1NotModelled) :=
  ⟨fun hcu => ⟨takes_of_exOf_raise (hex.trans (withCp1_unusable k hcu)), takeException_ce ..⟩,
    fun hcu hp => refuses_of_exOf_stop (hex.trans (withCp1_absent k hcu hp))⟩

/-- An instruction of coprocessor 2 (R641). -/
theorem cp2_outcomes {i : Instr} {s : State} (hex : exOf i s = noCop2 s) :
    (s.cp0.status.getLsbD 30 = false → Takes i s (.copUnusable 2#2) ∧
      (takeException (.copUnusable 2#2) s).cp0.cause.extractLsb' 28 2 = 2#2) ∧
    (s.cp0.status.getLsbD 30 = true → Takes i s .reserved) := by
  refine ⟨fun hcu => ⟨takes_of_exOf_raise (hex.trans (if_pos ?_)), takeException_ce ..⟩,
    fun hcu => takes_of_exOf_raise (hex.trans (if_neg ?_))⟩
  · have hcu : stCU2 s.cp0.status = false := hcu
    simp [hcu]
  · have hcu : stCU2 s.cp0.status = true := hcu
    simp [hcu]

/-- Settles O45: the checks stand first in the EX stages. -/
theorem coprocessorUnusable : Obligations.CoprocessorUnusable := by
  intro s payload ft offset base
  simp only [List.forall_mem_cons, List.not_mem_nil, false_imp_iff, implies_true, and_true]
  exact ⟨⟨cp1_outcomes rfl, cp1_outcomes rfl, cp1_outcomes rfl, cp1_outcomes rfl, cp1_outcomes rfl⟩,
    cp2_outcomes rfl, cp2_outcomes rfl, cp2_outcomes rfl, cp2_outcomes rfl, cp2_outcomes rfl⟩

end Sys2Proof.Machine
end

section
/-! PROOFS. Bytes (20_memory.md R13, R140, R142, R244): the bytes of a number the bus reads or writes, the bytes of a doubleword, and
what the bus answers. -/

namespace Sys2Proof.Machine

/-! ## Bytes of numbers -/

/-- A byte of a number, bit by bit. -/
theorem getLsbD_byte (m e i : Nat) (hi : i < 8) : (BitVec.ofNat 8 (m / 256 ^ e)).getLsbD i = m.testBit (8 * e + i) := by
  rw [show (256 : Nat) = 2 ^ 8 from rfl, ← Nat.pow_mul, BitVec.getLsbD_ofNat, Nat.testBit_div_two_pow]
  simp [hi, Nat.add_comm]

/-- A byte of a doubleword is that byte of its number. -/
theorem extract_eq_byte (x : Word) (e : Nat) : x.extractLsb' (8 * e) 8 = BitVec.ofNat 8 (x.toNat / 256 ^ e) := by
  apply BitVec.eq_of_getLsbD_eq
  intro i hi
  rw [getLsbD_byte _ _ _ hi, BitVec.getLsbD_extractLsb', BitVec.testBit_toNat]
  simp [hi]

/-- A byte of a big-endian read is the byte at its address (R140). -/
theorem readBE_byte (m : List Host.Cell) (b : Nat) {k i : Nat} (hi : i < k) :
    readBE m b k / 256 ^ (k - 1 - i) % 256 = (memRead m (b + i)).toNat := by
  induction k with
  | zero => omega
  | succ k ih =>
    rw [readBE]
    have hb := (memRead m (b + k)).isLt
    by_cases hik : i = k
    · rw [hik, Nat.add_sub_cancel, Nat.sub_self, Nat.pow_zero, Nat.div_one]
      omega
    · have hexp : k + 1 - 1 - i = (k - 1 - i) + 1 := by omega
      rw [hexp, Nat.pow_succ, Nat.mul_comm (256 ^ _), ← Nat.div_div_eq_div_mul,
        show (readBE m b k * 256 + (memRead m (b + k)).toNat) / 256 = readBE m b k by omega]
      exact ih (by omega)

/-- The canonical order is part of the canonical form. -/
theorem memWfFrom_of_wf {m : List Host.Cell} (h : Memory.wf m = true) : memWfFrom 0 m = true := by
  simp only [Memory.wf, Bool.and_eq_true] at h
  exact h.1

/-! ## What the bus answers (R9, R146, R241, R244) -/

section
variable (s : State) (a n : Nat)

/-- What the bus answers to a read fits its width. -/
theorem busRead_lt : s.busRead a n < 256 ^ n := by
  have hpos : 0 < 256 ^ n := Nat.pow_pos (by decide)
  unfold State.busRead
  split
  · next r _ =>
    cases r.answer with
    | none => exact Nat.mod_lt _ hpos
    | some v => exact Nat.mod_lt _ hpos
  · exact readBE_lt ..

variable {s a n}

/-- Where no device answers, a byte of the answer is memory's. -/
theorem answerByte_memory (h : ¬ Touches s .read .device a n) {j : Nat} (hj : j < n) :
    answerByte s a n j = memRead s.mem (a + j) := by
  apply BitVec.eq_of_toNat_eq
  rw [answerByte, busRead_memory h, BitVec.toNat_ofNat]
  exact readBE_byte s.mem a hj

/-- The first rule that makes a request a device's. -/
theorem busRule_first {before after : List BusRange} {r : BusRange} (hmap : s.inputs.busMap = before ++ r :: after)
    (hbefore : ∀ q ∈ before, q.kind = .device → ¬ q.Covers s.inputs.busTime .read a n) (hkind : r.kind = .device)
    (hcov : r.Covers s.inputs.busTime .read a n) : busRule s.inputs .read .device a n = some r := by
  have hnone : before.find? (fun q => q.kind == .device && q.answers s.inputs.busTime .read a n) = none := by
    rw [List.find?_eq_none]
    intro q hq
    simpa [answers_iff] using hbefore q hq
  rw [busRule, hmap, List.find?_append, hnone]
  simp [hkind, (answers_iff ..).mpr hcov]

theorem busWrite_plain (v : Nat) (hrom : ¬ Touches s .write .rom a n) (hdev : ¬ Touches s .write .device a n) :
    s.busWrite a n v = writeBE s.mem a n v := by
  have h : ¬ busTakesWrite s.inputs a n = true := by
    simp only [busTakesWrite, Bool.or_eq_true, busMeets_iff]
    exact not_or.mpr ⟨hrom, hdev⟩
  exact if_neg h

theorem busWrite_taken (v : Nat) (h : Touches s .write .rom a n ∨ Touches s .write .device a n) :
    s.busWrite a n v = s.mem := by
  have h : busTakesWrite s.inputs a n = true := by
    simpa only [busTakesWrite, Bool.or_eq_true, busMeets_iff] using h
  exact if_pos h

end

/-- A byte of a read after a write (R142). -/
theorem readBE_writeBE_byte {m : List Host.Cell} (a n v b : Nat) {k i : Nat} (h : Memory.wf m = true) (hi : i < k) :
    readBE (writeBE m a n v) b k / 256 ^ (k - 1 - i) % 256 =
      if a ≤ b + i ∧ b + i < a + n then v / 256 ^ (n - 1 - (b + i - a)) % 256 else (memRead m (b + i)).toNat := by
  rw [readBE_byte _ _ hi]
  split
  · next hin =>
    obtain ⟨lo, hlo⟩ := hin
    have hat : b + i = a + (b + i - a) := by omega
    rw [hat, memRead_writeBE_inside a n v (memWfFrom_of_wf h) (by omega), BitVec.toNat_ofNat]
    congr 4
    omega
  · rw [memRead_writeBE_outside _ _ _ (by omega)]

/-- Settles O32: reads and writes byte by byte, and the rules of the bus. -/
theorem mixedWidths : Obligations.MixedWidths := by
  refine ⟨fun m a n v b k h i hi => readBE_writeBE_byte a n v b h hi, by decide,
    fun s a n v => ⟨fun h => ?_, ?_, fun _ => ?_, ?_, ?_⟩⟩
  · exact ⟨busRead_memory h, fun j hj => answerByte_memory h hj⟩
  · intro before r after x hmap hbefore hkind hcov hans
    rw [busRead_device (busRule_first hmap hbefore hkind hcov), hans]
    rfl
  · exact busRead_lt s a n
  · exact busWrite_plain v
  · exact busWrite_taken v

end Sys2Proof.Machine
end

section
/-! PROOFS. The loads and stores of the integer unit where the access goes through (43_loadstore.md R500 to R544). The shared
operations' laws give the effects; what is left are the values, for the partial-word forms byte by byte. -/

namespace Sys2Proof.Machine

/-- The effective address with the offset as an integer (R500). -/
theorem effAddr_eq (s : State) (base : RegNo) (offset : BitVec 16) :
    effAddr s base offset = s.readReg base + BitVec.ofInt 64 offset.toInt := by rw [effAddr, sextImm_eq_ofInt]

section
variable {i : Instr} {s : State} {op : MemOp} {rt base : RegNo} {offset : BitVec 16} {pa : PAddr} {cached : Bool}

/-! ## Loads -/

/-- A load that goes through. -/
theorem completes_load {v : Word} (hex : exOf i s = loadStore op rt offset base s) (hload : op.isStore = false)
    (hcp1 : op.isCp1 = false) (hlk : op.linked = false)
    (h : Accessible op (s.readReg base + BitVec.ofInt 64 offset.toInt) s pa cached)
    (hv : op.loadValue pa (loadedBytes op pa s) (s.readReg rt) = v) :
    Completes i s (Loads op s · rt pa cached v) := by
  unfold Completes
  rw [exec_eq_finish, hex, ← hv]
  exact loads_loadStore rt offset base hload hcp1 hlk (effAddr_eq s base offset ▸ h)

/-- A number that fits, zero-extended. -/
theorem setWidth_ofNat {k m : Nat} (h : m < 2 ^ k) : (BitVec.ofNat k m).setWidth 64 = BitVec.ofNat 64 m := by
  apply BitVec.eq_of_toNat_eq
  simp [Nat.mod_eq_of_lt h]

/-- What the bus answers, zero-extended. -/
theorem setWidth_busRead {n : Nat} (a k : Nat) (hk : 256 ^ n = 2 ^ k) :
    (BitVec.ofNat k (s.busRead a n)).setWidth 64 = BitVec.ofNat 64 (s.busRead a n) :=
  setWidth_ofNat (hk ▸ busRead_lt s a n)

/-! ## The bytes of a partial-word access (R520) -/

/-- A number of `k` ones, bit by bit. -/
theorem getLsbD_ones {w j : Nat} (k : Nat) (hj : j < w) : (BitVec.ofNat w (2 ^ k - 1)).getLsbD j = decide (j < k) := by
  rw [BitVec.getLsbD_ofNat, Nat.testBit_two_pow_sub_one, decide_eq_true hj, Bool.true_and]

/-- Clearing the low `k` bits. -/
theorem toNat_and_not_low {w : Nat} (x : BitVec w) (k : Nat) :
    (x &&& ~~~BitVec.ofNat w (2 ^ k - 1)).toNat = x.toNat - x.toNat % 2 ^ k := by
  have hshift : x &&& ~~~BitVec.ofNat w (2 ^ k - 1) = x >>> k <<< k := by
    apply BitVec.eq_of_getLsbD_eq
    intro j hj
    rw [BitVec.getLsbD_and, BitVec.getLsbD_not, getLsbD_ones k hj, BitVec.getLsbD_shiftLeft, BitVec.getLsbD_ushiftRight,
      decide_eq_true hj]
    by_cases hjk : j < k
    · simp [hjk]
    · simp [hjk, show k + (j - k) = j by omega]
  have hmul := Nat.div_add_mod x.toNat (2 ^ k)
  rw [hshift, BitVec.toNat_shiftLeft, BitVec.toNat_ushiftRight, Nat.shiftRight_eq_div_pow, Nat.shiftLeft_eq, Nat.mul_comm,
    Nat.mod_eq_of_lt (by have := x.isLt; omega)]
  omega

theorem firstByte_word (x : PAddr) : (x &&& ~~~3#32).toNat = x.toNat - x.toNat % 4 := toNat_and_not_low x 2

theorem firstByte_double (x : PAddr) : (x &&& ~~~7#32).toNat = x.toNat - x.toNat % 8 := toNat_and_not_low x 3

theorem getLsbD_lowBytes32 {j : Nat} (n : Nat) (hj : j < 32) : (lowBytes32 n).getLsbD j = decide (j < 8 * n) :=
  getLsbD_ones (8 * n) hj

theorem getLsbD_lowBytes64 {j : Nat} (n : Nat) (hj : j < 64) : (lowBytes64 n).getLsbD j = decide (j < 8 * n) :=
  getLsbD_ones (8 * n) hj

/-- A byte of the bus's answer, bit by bit. -/
theorem getLsbD_answerByte (s : State) (a n j : Nat) {b : Nat} (hb : b < 8) :
    (answerByte s a n j).getLsbD b = (s.busRead a n).testBit (8 * (n - 1 - j) + b) := getLsbD_byte _ _ _ hb

/-- The bus's answer has no bits above its width. -/
theorem testBit_busRead (s : State) (a n : Nat) {j : Nat} (hj : 8 * n ≤ j) : (s.busRead a n).testBit j = false := by
  refine Nat.testBit_lt_two_pow (Nat.lt_of_lt_of_le (busRead_lt s a n) ?_)
  rw [show (256 : Nat) = 2 ^ 8 from rfl, ← Nat.pow_mul]
  exact Nat.pow_le_pow_right (by decide) hj

/-- A byte of the low word, bit by bit. -/
theorem getLsbD_byteOf_low (v : Word) {j b : Nat} (hj : j < 4) (hb : b < 8) :
    (byteOf v (4 + j)).getLsbD b = v.getLsbD (24 - 8 * j + b) := by
  rw [byteOf, BitVec.getLsbD_extractLsb']
  simp [hb, show 56 - 8 * (4 + j) = 24 - 8 * j by omega]

theorem getLsbD_byteOf (v : Word) {j b : Nat} (hb : b < 8) : (byteOf v j).getLsbD b = v.getLsbD (56 - 8 * j + b) := by
  rw [byteOf, BitVec.getLsbD_extractLsb']
  simp [hb]

/-- The low bits of a sign-extended word. -/
theorem getLsbD_sext64 (x : Word32) {j : Nat} (hj : j < 32) : (sext64 x).getLsbD j = x.getLsbD j := by
  rw [sext64, BitVec.getLsbD_signExtend, if_pos hj, decide_eq_true (show j < 64 by omega), Bool.true_and]

theorem getLsbD_lo32 (v : Word) {j : Nat} (hj : j < 32) : (lo32 v).getLsbD j = v.getLsbD j := by
  simp [lo32, hj]

/-- The sign extension of a word is a sign-extended word (R302). -/
theorem sx32_sext64 (x : Word32) : sx32 (sext64 x) = true := by
  have hlo : lo32 (sext64 x) = x := by
    apply BitVec.eq_of_getLsbD_eq
    intro j hj
    rw [getLsbD_lo32 _ hj, getLsbD_sext64 x hj]
  rw [sx32, hlo, beq_self_eq_true]

end

/-! ## The values of the partial-word loads (R521 to R524) -/

section
variable (s : State) (pa : PAddr) (old : Word)

/-- LWL: the high bytes from the bus, the low ones the register's. -/
theorem byteOf_lwl {j : Nat} (hj : j < 4) :
    byteOf (MemOp.loadValue .lwl pa (loadedBytes .lwl pa s) old) (4 + j) =
      if j < 4 - pa.toNat % 4 then answerByte s pa.toNat (4 - pa.toNat % 4) j else byteOf old (4 + j) := by
  apply BitVec.eq_of_getLsbD_eq
  intro b hb
  have hp : 24 - 8 * j + b < 32 := by omega
  rw [getLsbD_byteOf_low _ hj hb, MemOp.loadValue, getLsbD_sext64 _ hp, BitVec.getLsbD_or, BitVec.getLsbD_shiftLeft,
    BitVec.getLsbD_ofNat, BitVec.getLsbD_and, getLsbD_lowBytes32 _ hp, getLsbD_lo32 _ hp]
  split
  · next h =>
    rw [getLsbD_answerByte _ _ _ _ hb]
    simp [hp, loadedBytes, MemOp.firstByte, MemOp.byteCount,
      show ¬ 24 - 8 * j + b < 8 * (pa.toNat % 4) by omega, show 8 * (4 - pa.toNat % 4 - 1 - j) + b < 32 by omega,
      show 24 - 8 * j + b - 8 * (pa.toNat % 4) = 8 * (4 - pa.toNat % 4 - 1 - j) + b by omega]
  · next h =>
    rw [getLsbD_byteOf_low _ hj hb]
    simp [show 24 - 8 * j + b < 8 * (pa.toNat % 4) by omega]

/-- LWR: the low bytes from the bus, the high ones the register's. -/
theorem byteOf_lwr {j : Nat} (hj : j < 4) :
    byteOf (MemOp.loadValue .lwr pa (loadedBytes .lwr pa s) old) (4 + j) =
      if j < 3 - pa.toNat % 4 then byteOf old (4 + j)
      else answerByte s (pa.toNat - pa.toNat % 4) (pa.toNat % 4 + 1) (j - (3 - pa.toNat % 4)) := by
  apply BitVec.eq_of_getLsbD_eq
  intro b hb
  have hp : 24 - 8 * j + b < 32 := by omega
  have hm : loadedBytes .lwr pa s = s.busRead (pa.toNat - pa.toNat % 4) (pa.toNat % 4 + 1) := by
    rw [← firstByte_word]
    rfl
  rw [getLsbD_byteOf_low _ hj hb, MemOp.loadValue, getLsbD_sext64 _ hp, BitVec.getLsbD_or, BitVec.getLsbD_and,
    BitVec.getLsbD_not, getLsbD_lowBytes32 _ hp, getLsbD_lo32 _ hp, BitVec.getLsbD_ofNat, hm]
  split
  · next h =>
    rw [getLsbD_byteOf_low _ hj hb, testBit_busRead _ _ _ (by omega)]
    simp [hp, show ¬ 24 - 8 * j + b < 8 * (pa.toNat % 4 + 1) by omega]
  · next h =>
    rw [getLsbD_answerByte _ _ _ _ hb]
    simp [hp, show 24 - 8 * j + b < 8 * (pa.toNat % 4 + 1) by omega,
      show 8 * (pa.toNat % 4 - (j - (3 - pa.toNat % 4))) + b = 24 - 8 * j + b by omega]

/-- LDL: as LWL, on the doubleword. -/
theorem byteOf_ldl {j : Nat} (hj : j < 8) :
    byteOf (MemOp.loadValue .ldl pa (loadedBytes .ldl pa s) old) j =
      if j < 8 - pa.toNat % 8 then answerByte s pa.toNat (8 - pa.toNat % 8) j else byteOf old j := by
  apply BitVec.eq_of_getLsbD_eq
  intro b hb
  have hp : 56 - 8 * j + b < 64 := by omega
  rw [getLsbD_byteOf _ hb, MemOp.loadValue, BitVec.getLsbD_or, BitVec.getLsbD_shiftLeft, BitVec.getLsbD_ofNat,
    BitVec.getLsbD_and, getLsbD_lowBytes64 _ hp]
  split
  · next h =>
    rw [getLsbD_answerByte _ _ _ _ hb]
    simp [hp, loadedBytes, MemOp.firstByte, MemOp.byteCount,
      show ¬ 56 - 8 * j + b < 8 * (pa.toNat % 8) by omega, show 8 * (8 - pa.toNat % 8 - 1 - j) + b < 64 by omega,
      show 56 - 8 * j + b - 8 * (pa.toNat % 8) = 8 * (8 - pa.toNat % 8 - 1 - j) + b by omega]
  · next h =>
    rw [getLsbD_byteOf _ hb]
    simp [show 56 - 8 * j + b < 8 * (pa.toNat % 8) by omega]

/-- LDR: as LWR, on the doubleword. -/
theorem byteOf_ldr {j : Nat} (hj : j < 8) :
    byteOf (MemOp.loadValue .ldr pa (loadedBytes .ldr pa s) old) j =
      if j < 7 - pa.toNat % 8 then byteOf old j
      else answerByte s (pa.toNat - pa.toNat % 8) (pa.toNat % 8 + 1) (j - (7 - pa.toNat % 8)) := by
  apply BitVec.eq_of_getLsbD_eq
  intro b hb
  have hp : 56 - 8 * j + b < 64 := by omega
  have hm : loadedBytes .ldr pa s = s.busRead (pa.toNat - pa.toNat % 8) (pa.toNat % 8 + 1) := by
    rw [← firstByte_double]
    rfl
  rw [getLsbD_byteOf _ hb, MemOp.loadValue, BitVec.getLsbD_or, BitVec.getLsbD_and, BitVec.getLsbD_not,
    getLsbD_lowBytes64 _ hp, BitVec.getLsbD_ofNat, hm]
  split
  · next h =>
    rw [getLsbD_byteOf _ hb, testBit_busRead _ _ _ (by omega)]
    simp [hp, show ¬ 56 - 8 * j + b < 8 * (pa.toNat % 8 + 1) by omega]
  · next h =>
    rw [getLsbD_answerByte _ _ _ _ hb]
    simp [hp, show 56 - 8 * j + b < 8 * (pa.toNat % 8 + 1) by omega,
      show 8 * (pa.toNat % 8 - (j - (7 - pa.toNat % 8))) + b = 56 - 8 * j + b by omega]

end

/-- Settles O25: the values of the aligned loads. -/
theorem alignedLoadResults : Obligations.AlignedLoadResults := by
  intro s rt offset base pa cached
  refine ⟨fun h => completes_load rfl rfl rfl rfl h rfl, fun h => completes_load rfl rfl rfl rfl h ?_,
    fun h => completes_load rfl rfl rfl rfl h rfl, fun h => completes_load rfl rfl rfl rfl h ?_,
    fun h => completes_load rfl rfl rfl rfl h rfl, fun h => completes_load rfl rfl rfl rfl h ?_,
    fun h => completes_load rfl rfl rfl rfl h rfl⟩
  · exact setWidth_busRead (n := 1) pa.toNat 8 rfl
  · exact setWidth_busRead (n := 2) pa.toNat 16 rfl
  · exact setWidth_busRead (n := 4) pa.toNat 32 rfl

/-- Settles O26: the values of the partial-word loads, byte by byte. -/
theorem partialLoadResults : Obligations.PartialLoadResults := by
  intro s rt offset base pa cached
  refine ⟨fun h => ⟨_, completes_load rfl rfl rfl rfl h rfl, sx32_sext64 _, fun j hj => byteOf_lwl s pa _ hj⟩,
    fun h => ⟨_, completes_load rfl rfl rfl rfl h rfl, sx32_sext64 _, fun j hj => byteOf_lwr s pa _ hj⟩,
    fun h => ⟨_, completes_load rfl rfl rfl rfl h rfl, fun j hj => byteOf_ldl s pa _ hj⟩,
    fun h => ⟨_, completes_load rfl rfl rfl rfl h rfl, fun j hj => byteOf_ldr s pa _ hj⟩⟩

end Sys2Proof.Machine
end

section
/-! PROOFS. The stores, the linked loads and the conditional stores where the access goes through (43_loadstore.md R530 to
R544), the partial-word stores byte by byte. -/

namespace Sys2Proof.Machine

/-! ## The bytes of a store -/

/-- Byte `j` of a doubleword counted from the most significant, as a number. -/
theorem ofNat_div_eq_byteOf (v : Word) (j : Nat) {e : Nat} (h : j + e = 7) : BitVec.ofNat 8 (v.toNat / 256 ^ e) = byteOf v j := by
  rw [byteOf, show 56 - 8 * j = 8 * e by omega, extract_eq_byte]

/-- A shift right by whole bytes drops them. -/
theorem ushiftRight_div (v : Word) (k e : Nat) : (v >>> (8 * k)).toNat / 256 ^ e = v.toNat / 256 ^ (k + e) := by
  rw [BitVec.toNat_ushiftRight, Nat.shiftRight_eq_div_pow, Nat.pow_mul, Nat.div_div_eq_div_mul, Nat.pow_add]

/-- The bytes of the low word are those of the doubleword. -/
theorem ofNat_lowWord_div (v : Word) {e : Nat} (he : e < 4) :
    BitVec.ofNat 8 (((v.setWidth 32).setWidth 64).toNat / 256 ^ e) = BitVec.ofNat 8 (v.toNat / 256 ^ e) := by
  apply BitVec.eq_of_getLsbD_eq
  intro b hb
  rw [getLsbD_byte _ _ _ hb, getLsbD_byte _ _ _ hb, BitVec.testBit_toNat, BitVec.testBit_toNat]
  simp [show 8 * e + b < 32 by omega, show 8 * e + b < 64 by omega]

/-- SWL and SDL store the register's high bytes from `base` on (R534, R536). -/
theorem storedAt_shifted {s t : State} {a k n : Nat} {v w : Word} (h : StoredAt s t a (n - k) (w >>> (8 * k)).toNat)
    (hn : n ≤ 8) (hw : ∀ e, e < n → BitVec.ofNat 8 (w.toNat / 256 ^ e) = BitVec.ofNat 8 (v.toNat / 256 ^ e)) {j : Nat}
    (hj : j < n - k) : memRead t.mem (a + j) = byteOf v (8 - n + j) := by
  rw [h.inside j hj, ushiftRight_div, hw _ (by omega), ofNat_div_eq_byteOf v (8 - n + j) (by omega)]

/-- SWR and SDR store the register's low bytes up to the address (R535, R537). -/
theorem storedAt_low {s t : State} {a k : Nat} {v : Word} (h : StoredAt s t (a - k) (k + 1) v.toNat) (hk : k < 8)
    (ha : k ≤ a) {j : Nat} (hj : j ≤ k) : memRead t.mem (a - j) = byteOf v (7 - j) := by
  have := h.inside (k - j) (by omega)
  rwa [show a - k + (k - j) = a - j by omega, show k + 1 - 1 - (k - j) = j by omega, ofNat_div_eq_byteOf v (7 - j) (by omega)]
    at this

section
variable {i : Instr} {s : State} {op : MemOp} {rt base : RegNo} {offset : BitVec 16} {pa : PAddr} {cached : Bool}

/-- A plain store that goes through. -/
theorem completes_store {P : State → Prop} (hwf : Memory.wf s.mem = true) (hex : exOf i s = loadStore op rt offset base s)
    (hstore : op.isStore = true) (hcp1 : op.isCp1 = false) (hc : op.conditional = false)
    (h : Accessible op (s.readReg base + BitVec.ofInt 64 offset.toInt) s pa cached)
    (hP : ∀ t, Stores op s t 0#5 pa cached (s.readReg rt) 0#64 → P t) :
    Completes i s (fun t => Stores op s t 0#5 pa cached (s.readReg rt) 0#64 ∧ P t) := by
  obtain ⟨t, ht, hs⟩ := stores_loadStore rt offset base hstore hcp1 hc (memWfFrom_of_wf hwf) (effAddr_eq s base offset ▸ h)
  exact ⟨t, by rw [exec_eq_finish, hex, ht], hs, hP t hs⟩

/-- A conditional store with LLbit set. -/
theorem completes_conditional {P : State → Prop} (hwf : Memory.wf s.mem = true)
    (hex : exOf i s = loadStore op rt offset base s) (hc : op.conditional = true) (hll : s.llbit = true)
    (h : Accessible op (s.readReg base + BitVec.ofInt 64 offset.toInt) s pa cached)
    (hP : ∀ t, Stores op s t rt pa cached (s.readReg rt) 1#64 → P t) :
    Completes i s (fun t => Stores op s t rt pa cached (s.readReg rt) 1#64 ∧ P t) := by
  obtain ⟨t, ht, hs⟩ := stores_conditional rt offset base hc hll (memWfFrom_of_wf hwf) (effAddr_eq s base offset ▸ h)
  exact ⟨t, by rw [exec_eq_finish, hex, ht], hs, hP t hs⟩

/-- A linked load (R540, R543). -/
theorem completes_linked (hex : exOf i s = loadStore op rt offset base s) (hlk : op.linked = true)
    (hstore : op.isStore = false) (h : Accessible op (s.readReg base + BitVec.ofInt 64 offset.toInt) s pa cached) :
    Completes i s (fun t =>
      Results s t rt (op.loadValue pa (loadedBytes op pa s) (s.readReg rt)) s.hi s.lo true { s.cp0 with llAddr := pa >>> 4 } ∧
      SameRest s t ∧ SameBytes s t ∧ Booked s t false cached pa ∧ Sequential s t) := by
  have h' : Accessible op (effAddr s base offset) s pa cached := effAddr_eq s base offset ▸ h
  unfold Completes
  rw [exec_eq_finish, hex, loadStore_allowed _ _ _ h.allowed, hstore, Bool.false_and]
  exact linked_memAccess rt _ _ hlk h'

/-- A conditional store with LLbit clear (R541). -/
theorem completes_conditional_clear {seg : Segment} (hex : exOf i s = loadStore op rt offset base s)
    (hc : op.conditional = true) (hll : s.llbit = false)
    (htr : translate s.transCtx (s.readReg base + BitVec.ofInt 64 offset.toInt) op.kind = .ok seg pa cached)
    (hen : endianRefusal s.cp0 = none) (hal : (s.readReg base + BitVec.ofInt 64 offset.toInt).toNat % op.alignment = 0)
    (h64 : op.ops64 = true → ops64Allowed s.cp0.status = true) : Completes i s (GprOnly s · rt 0#64) := by
  rw [← effAddr_eq] at htr hal
  unfold Completes
  rw [exec_eq_finish, hex, loadStore_allowed _ _ _ h64, hc, Bool.not_true, Bool.and_false]
  exact gprOnly_conditional rt _ _ hc hll hal htr hen

end

/-- Settles O27: the operation's own bytes are the ones written. -/
theorem alignedStoreResults : Obligations.AlignedStoreResults := by
  intro s rt offset base pa cached hwf
  exact ⟨fun h => completes_store hwf rfl rfl rfl rfl h fun _ hs => hs.stored,
    fun h => completes_store hwf rfl rfl rfl rfl h fun _ hs => hs.stored,
    fun h => completes_store hwf rfl rfl rfl rfl h fun _ hs => hs.stored,
    fun h => completes_store hwf rfl rfl rfl rfl h fun _ hs => hs.stored⟩

/-- Settles O28: the bytes of the register, by the operation's first byte and count. -/
theorem partialStoreResults : Obligations.PartialStoreResults := by
  intro s rt offset base pa cached hwf
  have hk := Nat.mod_le pa.toNat 4
  have hk8 := Nat.mod_le pa.toNat 8
  refine ⟨fun h => completes_store hwf rfl rfl rfl rfl h fun t hs hp => ?_,
    fun h => completes_store hwf rfl rfl rfl rfl h fun t hs hp => ?_,
    fun h => completes_store hwf rfl rfl rfl rfl h fun t hs hp => ?_,
    fun h => completes_store hwf rfl rfl rfl rfl h fun t hs hp => ?_⟩
  · have hst : StoredAt s t pa.toNat (4 - pa.toNat % 4) _ := hs.stored.plain hp.1 hp.2
    exact ⟨fun j hj => storedAt_shifted hst (by decide) (fun e he => ofNat_lowWord_div _ he) hj,
      fun x hx => hst.outside x (by omega)⟩
  · have hfirst : (MemOp.swr.firstByte pa).toNat = pa.toNat - pa.toNat % 4 := firstByte_word pa
    have hst := hs.stored.plain
    rw [hfirst] at hst
    have hst : StoredAt s t (pa.toNat - pa.toNat % 4) (pa.toNat % 4 + 1) _ := hst hp.1 hp.2
    exact ⟨fun j hj => storedAt_low hst (by omega) hk hj, fun x hx => hst.outside x (by omega)⟩
  · have hst : StoredAt s t pa.toNat (8 - pa.toNat % 8) _ := hs.stored.plain hp.1 hp.2
    refine ⟨fun j hj => ?_, fun x hx => hst.outside x (by omega)⟩
    simpa using storedAt_shifted (v := s.readReg rt) hst (Nat.le_refl 8) (fun _ _ => rfl) hj
  · have hfirst : (MemOp.sdr.firstByte pa).toNat = pa.toNat - pa.toNat % 8 := firstByte_double pa
    have hst := hs.stored.plain
    rw [hfirst] at hst
    have hst : StoredAt s t (pa.toNat - pa.toNat % 8) (pa.toNat % 8 + 1) _ := hst hp.1 hp.2
    exact ⟨fun j hj => storedAt_low hst (by omega) hk8 hj, fun x hx => hst.outside x (by omega)⟩

/-- Settles O29: the linked loads, and the conditional stores by LLbit. -/
theorem linkedAndConditionalResults : Obligations.LinkedAndConditionalResults := by
  intro s rt offset base pa cached
  refine ⟨fun h => completes_linked rfl rfl rfl h, fun h => completes_linked rfl rfl rfl h, fun hll hwf => ⟨?_, ?_⟩,
    fun hll seg htr hen => ⟨?_, ?_⟩⟩
  · exact fun h => completes_conditional hwf rfl rfl hll h fun _ hs => hs.stored
  · exact fun h => completes_conditional hwf rfl rfl hll h fun _ hs => hs.stored
  · exact fun hal => completes_conditional_clear (op := .sc) rfl rfl hll htr hen hal (fun h => by cases h)
  · exact fun hal h64 => completes_conditional_clear (op := .scd) rfl rfl hll htr hen hal (fun _ => h64)

end Sys2Proof.Machine
end

section
/-! PROOFS. The moves from and to CP0, ERET and the TLB writes where CP0 is usable (44_system.md R570 to R600). -/

namespace Sys2Proof.Machine

/-! ## Instructions on the system's state -/

/-- An instruction whose EX stage leaves `st` and asks for nothing else. -/
theorem completes_of_exOf_ok {i : Instr} {s st : State} {imm : Bool} {mv : Option (ReqType × Nat)} {P : State → Prop}
    (hex : exOf i s = .ok { st := st, immWrite := imm, lineMove := mv }) (h : P (st.advance .seq)) : Completes i s P :=
  ⟨st.advance .seq, by rw [exec_eq_finish, hex]; rfl, h⟩

/-- What a system instruction leaves alone. -/
theorem SystemOnly.frame {s st : State} (h : SystemOnly s st) : SystemFrame s (st.advance .seq) := by
  unfold SystemOnly at h
  have hseq := (sequential_advance st).of_eq (s := s) (by rw [h]) (by rw [h])
  constructor
  case sequential => exact hseq
  case gpr => exact readReg_congr (by rw [advance_gpr, h])
  all_goals simp only [advance_hi, advance_lo, advance_llbit, advance_cp1, advance_pipe, advance_coldReset, advance_params,
    advance_inputs]; rw [h]

/-- A value drawn in passing is no effect. -/
theorem gprOnly_of_drew {s t : State} {n : Nat} {rd : RegNo} {v : Word} (h : GprOnly (s.drew n) t rd v) :
    GprOnly s t rd v :=
  { h with
    results := { h.results with }
    rest := { h.rest with }
    memory := { h.memory with }
    sequential := { h.sequential with } }

/-! ## MFC0 and DMFC0 -/

/-- The move from CP0 gives its value (R575, R576). -/
theorem completes_moveFromCp0 {i : Instr} {s : State} {wide : Bool} {rt n : RegNo} (hex : exOf i s = moveFromCp0 wide rt n s) :
    Completes i s (GprOnly s · rt
      (if wide && (cp0Is64 n || cp0Reserved n) then cp0Read n s else sext64 (lo32 (cp0Read n s)))) := by
  obtain ⟨t, ht, hg⟩ := gprOnly_resultFor rt
    (if wide && (cp0Is64 n || cp0Reserved n) then cp0Read n s else sext64 (lo32 (cp0Read n s))) (s.drew 1)
  exact ⟨t, by rw [exec_eq_finish, hex]; exact ht, gprOnly_of_drew hg⟩

theorem lo32_setWidth (x : Word32) : lo32 (x.setWidth 64) = x := by simp [lo32]

/-- A 32-bit register is the low word of what is read. -/
theorem lo32_cp0Read {n m : RegNo} {s : State} {x : Word32} (hn : n = m) (h : cp0Read m s = x.setWidth 64) :
    lo32 (cp0Read n s) = x := by
  rw [hn, h, lo32_setWidth]

/-- The registers DMFC0 moves whole (R60, R576). -/
theorem cp0Whole_iff (n : RegNo) : (cp0Is64 n || cp0Reserved n) = true ↔
    n ∈ [2#5, 3#5, 4#5, 8#5, 10#5, 14#5, 20#5, 30#5, 7#5, 21#5, 22#5, 23#5, 24#5, 25#5, 31#5] := by
  revert n
  decide

/-- A drawn slot lies in Wired..31 (R204). -/
theorem drawSlot_bounds {wired : Word32} (d : Word) (h : wired.toNat ≤ 31) :
    wired.toNat ≤ (drawSlot wired d).toNat ∧ (drawSlot wired d).toNat ≤ 31 := by
  have hlt : wired.toNat + d.toNat % (32 - wired.toNat) < 32 := by have := Nat.mod_lt d.toNat (y := 32 - wired.toNat); omega
  rw [drawSlot, if_pos h, BitVec.toNat_ofNat, Nat.mod_eq_of_lt (by omega)]
  omega

theorem entryLoRead_cases (lo d : Word) : entryLoRead lo d = lo ∨ entryLoRead lo d = lo &&& ~~~0x3C000000#64 := by
  unfold entryLoRead
  split
  · exact .inl rfl
  · exact .inr rfl

/-- Random is read as stored unless the policy draws (R204). -/
theorem randomRead_stored {s : State} (h : s.params.randomPolicy ≠ .draw) : randomRead s = s.cp0.random.setWidth 64 := by
  unfold randomRead
  split
  · next hd => exact absurd hd h
  · rfl
  · rfl

theorem randomRead_drawn {s : State} (h : s.params.randomPolicy = .draw) :
    randomRead s = (drawSlot s.cp0.wired s.drawn).setWidth 64 := by rw [randomRead, h]

/-- Settles O34: what each CP0 register reads as. -/
theorem moveFromCp0Results : Obligations.MoveFromCp0Results := by
  intro s rt n hcp0
  refine ⟨completes_moveFromCp0 (wide := false) (withCp0_usable _ hcp0), fun h64 => ?_, fun hn => ?_,
    fun h => lo32_cp0Read h rfl, fun h => h ▸ rfl, fun h => lo32_cp0Read h rfl, fun h => lo32_cp0Read h rfl, fun h => h ▸ rfl,
    fun h => lo32_cp0Read h rfl, fun h => h ▸ rfl, fun h => lo32_cp0Read h rfl, fun h => lo32_cp0Read h rfl,
    fun h => lo32_cp0Read h rfl, fun h => h ▸ rfl, fun h => lo32_cp0Read h rfl, fun h => lo32_cp0Read h rfl,
    fun h => lo32_cp0Read h rfl, fun h => lo32_cp0Read h rfl, fun h => lo32_cp0Read h rfl, fun h => h ▸ rfl,
    fun h => lo32_cp0Read h rfl, fun h => h ▸ rfl, fun h => lo32_cp0Read h rfl, fun h => lo32_cp0Read h rfl, fun h => h ▸ rfl,
    fun h hp => lo32_cp0Read h (randomRead_stored hp), fun h hp hw => ?_, fun h => h ▸ entryLoRead_cases _ _,
    fun h => h ▸ entryLoRead_cases _ _⟩
  · have := completes_moveFromCp0 (i := .dmfc0 rt n) (wide := true) ((withCp0_usable _ hcp0).trans (withOps64_allowed _ h64))
    simpa only [Bool.true_and, cp0Whole_iff] using this
  · simp only [List.mem_cons, List.not_mem_nil, or_false] at hn
    rcases hn with rfl | rfl | rfl | rfl | rfl | rfl | rfl <;> rfl
  · have hv : cp0Read n s = (drawSlot s.cp0.wired s.drawn).setWidth 64 := h ▸ randomRead_drawn hp
    have hb := drawSlot_bounds s.drawn hw
    rw [hv, BitVec.toNat_setWidth, Nat.mod_eq_of_lt (by omega)]
    exact hb

/-! ## MTC0 and DMTC0 -/

/-- What MTC0's EX stage leaves: the register under its mask, and no cached segment after a write of Status or Config. -/
theorem moveToCp0_ok (s : State) (n : RegNo) (v : Word) : ∃ st, moveToCp0 n v s = .ok { st := st, immWrite := true } ∧
    st = { s with
      cp0 := cp0WriteRegs n v s.cp0, activeSeg := if n = 12#5 ∨ n = 16#5 then Segment.sentinel else s.activeSeg
      hz := st.hz, draws := st.draws } := by
  refine ⟨_, rfl, ?_⟩
  dsimp only
  split <;> split <;> rfl

/-- The move to CP0 writes the register under its mask and drops the cached segment (R577, R800). -/
theorem completes_moveToCp0 {i : Instr} {s : State} {n : RegNo} {v : Word} (hex : exOf i s = moveToCp0 n v s) :
    Completes i s (Cp0Only { s with activeSeg := if n = 12#5 ∨ n = 16#5 then Segment.sentinel else s.activeSeg } ·
      (cp0WriteRegs n v s.cp0)) := by
  obtain ⟨st, hok, hst⟩ := moveToCp0_ok s n v
  obtain ⟨t, ht, hc⟩ := cp0Only_ok (s := { s with activeSeg := if n = 12#5 ∨ n = 16#5 then Segment.sentinel else s.activeSeg })
    (cp0WriteRegs n v s.cp0) true hst
  exact ⟨t, by rw [exec_eq_finish, hex, hok]; exact ht, hc⟩

/-- Settles O35: the masks of cp0WriteRegs, register by register. -/
theorem moveToCp0Results : Obligations.MoveToCp0Results := by
  intro s rt n hcp0 s' bits32 bits64 written
  have hwritten : ∀ w, written w (cp0WriteRegs n w s.cp0) := by
    intro w
    refine ⟨?_, ?_, ?_, ?_, ?_, ?_, ?_, ?_, ?_, ?_, ?_, ?_, ?_, ?_, ?_, ?_, ?_, ?_, ?_, ?_, ?_, fun hn => ?_⟩
    case refine_22 =>
      simp only [List.mem_cons, List.not_mem_nil, or_false] at hn
      rcases hn with rfl | rfl | rfl | rfl | rfl | rfl | rfl | rfl | rfl | rfl | rfl <;> rfl
    all_goals exact fun h => h ▸ rfl
  exact ⟨⟨_, hwritten _, completes_moveToCp0 (withCp0_usable _ hcp0)⟩,
    fun h64 => ⟨_, hwritten _, completes_moveToCp0 ((withCp0_usable _ hcp0).trans (withOps64_allowed _ h64))⟩⟩

/-! ## ERET -/

/-- ERET where it completes. -/
theorem exec_eret {s : State} (hcp0 : cp0Usable s.cp0.status = true) (hd : s.delay = none) : exec .eret s = .next { s with
    pc := eretTarget s.cp0, delay := none, llbit := false, cp0 := { s.cp0 with status := eretStatus s.cp0.status }
    activeSeg := .sentinel, hz := s.hz.retire } := by
  rw [exec_eq_finish, show exOf .eret s = eretOut s from withCp0_usable _ hcp0, eretOut, hd]
  rfl

/-- Settles O37: the return by ERL. -/
theorem eretResults : Obligations.EretResults := by
  intro s hcp0 hd
  refine ⟨_, exec_eret hcp0 hd, fun hl => ?_, fun hl => ?_, rfl, rfl, rfl, fun r => rfl, rfl, rfl, ⟨fun _ => rfl, rfl, rfl⟩,
    rfl, rfl, rfl, rfl, rfl, rfl⟩
  · constructor
    · show eretTarget s.cp0 = _
      rw [eretTarget, if_pos hl]
    · show ({ s.cp0 with status := eretStatus s.cp0.status } : Cp0) = _
      rw [eretStatus, if_pos hl]
  · constructor
    · show eretTarget s.cp0 = _
      rw [eretTarget, hl]
      rfl
    · show ({ s.cp0 with status := eretStatus s.cp0.status } : Cp0) = _
      rw [eretStatus, hl]
      rfl

end Sys2Proof.Machine
end

section
/-! PROOFS. The TLB: its writes, its lookups under every policy, TLBR and TLBP (20_memory.md R190 to R204, 44_system.md R593 to
R596). -/

namespace Sys2Proof.Machine

/-! ## The writes -/

/-- TLBWI where it writes. -/
theorem exOf_tlbwi {s : State} (hcp0 : cp0Usable s.cp0.status = true) (hq : s.params.noopQuirks = false)
    (hi : indexField s.cp0 < 32) : exOf .tlbwi s = .ok
      { st := (s.tlbWrite (indexField s.cp0) (tlbEntryFromCp0 s.cp0)).noteCp0Write s, immWrite := true } := by
  rw [show exOf .tlbwi s = tlbWriteIndexed s from withCp0_usable _ hcp0, tlbWriteIndexed, hq, if_pos hi]
  rfl

/-- The state a TLBWI that writes leaves. -/
theorem exec_tlbwi {s : State} (hcp0 : cp0Usable s.cp0.status = true) (hq : s.params.noopQuirks = false)
    (hi : indexField s.cp0 < 32) : exec .tlbwi s =
      .next (((s.tlbWrite (indexField s.cp0) (tlbEntryFromCp0 s.cp0)).noteCp0Write s).advance .seq) := by
  rw [exec_eq_finish, exOf_tlbwi hcp0 hq hi]
  rfl

/-- TLBWR where Wired is legal. -/
theorem exOf_tlbwr {s : State} (hcp0 : cp0Usable s.cp0.status = true) (hw : s.cp0.wired.toNat ≤ 31) :
    exOf .tlbwr s = .ok
      { st := State.noteCp0Write { (s.tlbWrite (randomSlot s) (tlbEntryFromCp0 s.cp0)).drew 2 with
          cp0 := { s.cp0 with random := randomAfterTlbwr s } } s
        immWrite := true } := by
  rw [show exOf .tlbwr s = tlbWriteRandom s from withCp0_usable _ hcp0, tlbWriteRandom, if_neg (Nat.not_lt.mpr hw)]

theorem tlbWrite_same (s : State) (e : TlbEntry) {i : Nat} {j : Fin 32} (h : j.val = i) : (s.tlbWrite i e).tlb[j] = e := by
  subst h
  simp [State.tlbWrite]

theorem tlbWrite_other (s : State) (e : TlbEntry) {i : Nat} {j : Fin 32} (h : j.val ≠ i) :
    (s.tlbWrite i e).tlb[j] = s.tlb[j] := by
  simp [State.tlbWrite, Ne.symm h]

/-- The slot of TLBWR lies in Wired..31, and is Random's own unless the policy draws (R204). -/
theorem randomSlot_bounds {s : State} (hw : s.cp0.wired.toNat ≤ 31)
    (hr : s.params.randomPolicy ≠ .draw → s.cp0.wired.toNat ≤ s.cp0.random.toNat ∧ s.cp0.random.toNat ≤ 31) :
    s.cp0.wired.toNat ≤ randomSlot s ∧ randomSlot s < 32 ∧
      (s.params.randomPolicy ≠ .draw → randomSlot s = s.cp0.random.toNat) := by
  unfold randomSlot
  split
  · next hd =>
    have := drawSlot_bounds s.drawn hw
    exact ⟨this.1, by omega, fun h => absurd hd h⟩
  all_goals
    next hp =>
      have := hr (by rw [hp]; decide)
      exact ⟨by omega, by omega, fun _ => by omega⟩

/-- The countdown of Random inside Wired..31 (R204). -/
theorem randomNext_eq {c : Cp0} (hw : c.wired.toNat ≤ c.random.toNat) (hr : c.random.toNat ≤ 31) :
    randomNext c = if c.random = c.wired then 31#32 else c.random - 1#32 := by
  unfold randomNext
  split
  · rfl
  · next hne =>
    have hlt : c.wired.toNat ≠ c.random.toNat := fun h => hne (BitVec.eq_of_toNat_eq h.symm)
    apply BitVec.eq_of_toNat_eq
    rw [BitVec.toNat_and, show (0x3F#32).toNat = 2 ^ 6 - 1 from rfl, Nat.and_two_pow_sub_one_eq_mod]
    bv_omega

/-- Random after a TLBWR stays in Wired..31 (R204). -/
theorem randomAfterTlbwr_bounds {s : State} (hw : s.cp0.wired.toNat ≤ 31)
    (hr : s.params.randomPolicy ≠ .draw → s.cp0.wired.toNat ≤ s.cp0.random.toNat ∧ s.cp0.random.toNat ≤ 31) :
    s.cp0.wired.toNat ≤ (randomAfterTlbwr s).toNat ∧ (randomAfterTlbwr s).toNat ≤ 31 := by
  unfold randomAfterTlbwr
  split
  · next hp =>
    obtain ⟨hlow, hhigh⟩ := hr (by rw [hp]; decide)
    rw [randomNext_eq hlow hhigh]
    split
    · exact ⟨hw, Nat.le_refl 31⟩
    · next hne =>
      have hlt : s.cp0.wired.toNat ≠ s.cp0.random.toNat := fun h => hne (BitVec.eq_of_toNat_eq h.symm)
      bv_omega
  · next hp => exact hr (by rw [hp]; decide)
  · have := drawSlot_bounds (s.drawnAt 1) hw
    rw [BitVec.toNat_setWidth, Nat.mod_eq_of_lt (by omega)]
    exact this

/-- Settles O39: the entry written, the slot and Random by the policy. -/
theorem tlbWriteResults : Obligations.TlbWriteResults := by
  intro s hcp0 i c
  refine ⟨fun hq hi => ?_, fun hq hi => ?_, fun hq => ?_, fun hw => ?_, fun hw hr => ?_⟩
  · refine completes_of_exOf_ok (exOf_tlbwi hcp0 hq hi) ⟨SystemOnly.frame rfl, ⟨?_, ?_, ?_⟩, ?_, ?_, ?_, ?_, fun j hj => ?_,
      fun j hj => ?_⟩
    case refine_8 => rw [advance_tlb]; exact tlbWrite_other s _ hj
    case refine_9 =>
      rw [advance_tlb, show ((s.tlbWrite (indexField s.cp0) (tlbEntryFromCp0 s.cp0)).noteCp0Write s).tlb[j] = _ from
        tlbWrite_same s _ hj]
      exact ⟨rfl, rfl, rfl, rfl, rfl, rfl, rfl⟩
    case refine_1 => intro a; rw [advance_mem]; rfl
    all_goals simp only [advance_dDirty, advance_dMaybe, advance_cp0, advance_icache, advance_activeSeg, advance_countPhase]; rfl
  · refine refuses_of_exOf_stop ?_
    rw [show exOf .tlbwi s = tlbWriteIndexed s from withCp0_usable _ hcp0, tlbWriteIndexed, hq,
      if_neg (show ¬ indexField s.cp0 < 32 from Nat.not_lt.mpr hi)]
    rfl
  · refine completes_resultFor (v := 0#64) ?_ rfl
    rw [show exOf .tlbwi s = tlbWriteIndexed s from withCp0_usable _ hcp0, tlbWriteIndexed, hq]
    rfl
  · refine refuses_of_exOf_stop ?_
    rw [show exOf .tlbwr s = tlbWriteRandom s from withCp0_usable _ hcp0, tlbWriteRandom, if_pos hw]
    rfl
  · obtain ⟨hlow, hlt, hslot⟩ := randomSlot_bounds hw hr
    refine ⟨⟨randomSlot s, hlt⟩, hlow, hslot,
      completes_of_exOf_ok (exOf_tlbwr hcp0 hw) ⟨SystemOnly.frame rfl, ⟨?_, ?_, ?_⟩, ?_, ?_,
      ?_, ?_, ?_, fun j hj => ?_, fun hp => ?_, fun hp => ?_, ?_⟩⟩
    case refine_1 => intro a; rw [advance_mem]; rfl
    case refine_8 => rw [advance_tlb]; exact tlbWrite_same s (tlbEntryFromCp0 s.cp0) (j := ⟨randomSlot s, hlt⟩) rfl
    case refine_9 => rw [advance_tlb]; exact tlbWrite_other s _ (fun h => hj (Fin.ext h))
    case refine_10 =>
      have hb := hr (by rw [hp]; decide)
      rw [advance_cp0]
      show randomAfterTlbwr s = _
      rw [randomAfterTlbwr, hp, randomNext_eq hb.1 hb.2]
    case refine_11 =>
      rw [advance_cp0]
      show randomAfterTlbwr s = _
      rw [randomAfterTlbwr, hp]
    case refine_12 =>
      rw [advance_cp0]
      exact randomAfterTlbwr_bounds hw hr
    all_goals simp only [advance_dDirty, advance_dMaybe, advance_cp0, advance_icache, advance_activeSeg, advance_countPhase]; rfl

end Sys2Proof.Machine
end

section
/-! PROOFS. Lookups and probes of the TLB (20_memory.md R190 to R198): which index is picked among the entries that match, and
what the entry picked makes of an address. -/

namespace Sys2Proof.Machine

/-! ## The index picked (R193) -/

/-- A rising list of the indices of the entries that match. -/
structure Lists (found : List Nat) (hits : Fin 32 → Prop) : Prop where
  rising : found.Pairwise (· < ·)
  mem : ∀ i, i ∈ found ↔ ∃ h : i < 32, hits ⟨i, h⟩

/-- The matching indices are listed lowest first. -/
theorem lists_tlbMatches (tlb : Vector TlbEntry 32) (vpn2 : BitVec 27) (r : BitVec 2) (asid : BitVec 8) :
    Lists (tlbMatches tlb vpn2 r asid) (fun j => (tlb[j]).matchesPage vpn2 r asid = true) where
  rising := by
    refine List.Pairwise.sublist (List.Sublist.map _ List.filter_sublist) ?_
    rw [List.zipIdx_map_snd]
    exact List.pairwise_lt_range'
  mem := fun _ => mem_tlbMatches

section
variable {found recency : List Nat} {hits : Fin 32 → Prop} (hl : Lists found hits) (policy : MultiMatch)
include hl

theorem Lists.val_mem {i : Fin 32} : i.val ∈ found ↔ hits i := by
  rw [hl.mem]
  exact ⟨fun ⟨_, h⟩ => h, fun h => ⟨i.isLt, h⟩⟩

/-- Only the entries listed can be found, and the head is the lowest of them. -/
theorem Lists.eq_cons {i : Fin 32} (hi : hits i) (hlow : ∀ j : Fin 32, j < i → ¬ hits j) : ∃ more, found = i.val :: more := by
  have hr := hl.rising
  have hmem := hl.val_mem.mpr hi
  have hm := hl.mem
  cases found with
  | nil => cases hmem
  | cons a more =>
    refine ⟨more, congrArg (· :: more) ?_⟩
    obtain ⟨ha, hhit⟩ := (hm a).mp List.mem_cons_self
    rcases List.mem_cons.mp hmem with h | h
    · exact h.symm
    · exact absurd hhit (hlow ⟨a, ha⟩ ((List.pairwise_cons.mp hr).1 _ h))

/-- No entry matches. -/
theorem Lists.pick_none (h : ∀ j, ¬ hits j) : tlbPick policy recency found = .miss := by
  have : found = [] := List.eq_nil_iff_forall_not_mem.mpr fun i hi => by
    obtain ⟨hlt, hit⟩ := (hl.mem i).mp hi
    exact h _ hit
  rw [this, tlbPick_nil]

/-- One entry matches. -/
theorem Lists.pick_one {i : Fin 32} (hi : hits i) (hall : ∀ j, j ≠ i → ¬ hits j) : tlbPick policy recency found = .hit i := by
  obtain ⟨more, rfl⟩ := hl.eq_cons hi (fun j hj => hall j (Fin.ne_of_lt hj))
  cases more with
  | nil => rfl
  | cons b rest =>
    obtain ⟨hb, hhit⟩ := (hl.mem b).mp (by simp)
    have hlt : i.val < b := (List.pairwise_cons.mp hl.rising).1 b List.mem_cons_self
    exact absurd hhit (hall _ (fun h => absurd (congrArg Fin.val h) (Nat.ne_of_gt hlt)))

/-- Two entries match. -/
theorem Lists.several {a b : Fin 32} (hab : a ≠ b) (ha : hits a) (hb : hits b) : ∃ i j rest, found = i :: j :: rest := by
  have ham := hl.val_mem.mpr ha
  have hbm := hl.val_mem.mpr hb
  match found, ham, hbm with
  | [i], ham, hbm =>
    exact absurd (Fin.ext ((List.mem_singleton.mp ham).trans (List.mem_singleton.mp hbm).symm)) hab
  | i :: j :: rest, _, _ => exact ⟨i, j, rest, rfl⟩

theorem Lists.pick_refuse {a b : Fin 32} (hab : a ≠ b) (ha : hits a) (hb : hits b) :
    tlbPick .refuse recency found = .multiple := by
  obtain ⟨i, j, rest, rfl⟩ := hl.several hab ha hb
  rfl

/-- The lowest index that matches. -/
theorem Lists.pick_lowest {i : Fin 32} (hi : hits i) (hlow : ∀ j : Fin 32, j < i → ¬ hits j) :
    tlbPick .lowestIndex recency found = .hit i := by
  obtain ⟨more, rfl⟩ := hl.eq_cons hi hlow
  cases more <;> rfl

/-- The first match of the write order is picked. -/
theorem Lists.pick_recent {i : Fin 32} {later earlier : List Nat} (hi : hits i) (hr : recency = later ++ i.val :: earlier)
    (hlater : ∀ j : Fin 32, j.val ∈ later → ¬ hits j) : tlbPick .mostRecent recency found = .hit i := by
  have hfind : recency.find? (fun j => found.contains j) = some i.val := by
    rw [hr, List.find?_append, List.find?_eq_none.mpr fun j hj hc => ?_, Option.none_or, List.find?_cons_of_pos]
    · simpa using hl.val_mem.mpr hi
    · obtain ⟨hlt, hit⟩ := (hl.mem j).mp (by simpa using hc)
      exact hlater ⟨j, hlt⟩ hj hit
  have hmem := hl.val_mem.mpr hi
  match found, hmem, hfind with
  | [j], hmem, _ => rw [List.mem_singleton.mp hmem]; rfl
  | j :: k :: rest, _, hfind => exact congrArg (fun o => TlbPick.hit (o.getD j)) hfind

/-- Entries never written count as the oldest, the lowest first. -/
theorem Lists.pick_unrecorded {i : Fin 32} (hi : hits i) (hlow : ∀ j : Fin 32, j < i → ¬ hits j)
    (hnone : ∀ j : Fin 32, hits j → j.val ∉ recency) : tlbPick .mostRecent recency found = .hit i := by
  have hfind : recency.find? (fun j => found.contains j) = none := List.find?_eq_none.mpr fun j hj hc => by
    obtain ⟨hlt, hit⟩ := (hl.mem j).mp (by simpa using hc)
    exact hnone ⟨j, hlt⟩ hit hj
  obtain ⟨more, rfl⟩ := hl.eq_cons hi hlow
  cases more with
  | nil => rfl
  | cons k rest => exact congrArg (fun o => TlbPick.hit (o.getD i.val)) hfind

end

/-! ## TLBR and TLBP -/

/-- A concatenation as a number. -/
theorem toNat_append_add {w v : Nat} (x : BitVec w) (y : BitVec v) : (x ++ y).toNat = x.toNat * 2 ^ v + y.toNat := by
  rw [BitVec.toNat_append, ← Nat.shiftLeft_add_eq_or_of_lt y.isLt, Nat.shiftLeft_eq]

/-- The registers TLBR writes, as numbers (R198). -/
theorem loFromPage_eq (p : TlbPage) (g : Bool) : loFromPage p g =
    BitVec.ofNat 64 (p.pfn.toNat * 64 + p.c.toNat * 8 + p.d.toNat * 4 + p.v.toNat * 2 + g.toNat) := by
  apply BitVec.eq_of_toNat_eq
  have := p.pfn.isLt
  have := p.c.isLt
  have := p.d.toNat_lt
  have := p.v.toNat_lt
  have := g.toNat_lt
  simp only [loFromPage, toNat_append_add, BitVec.toNat_ofNat, BitVec.toNat_ofBool]
  omega

theorem makeEntryHi_eq (r : BitVec 2) (vpn2 : BitVec 27) (asid : BitVec 8) : makeEntryHi r vpn2 asid =
    BitVec.ofNat 64 (r.toNat * 2 ^ 62 + vpn2.toNat * 2 ^ 13 + asid.toNat) := by
  apply BitVec.eq_of_toNat_eq
  have := r.isLt
  have := vpn2.isLt
  have := asid.isLt
  simp only [makeEntryHi, toNat_append_add, BitVec.toNat_ofNat]
  omega

theorem pageMask_eq (mask : BitVec 12) : (0#7 ++ mask ++ 0#13 : Word32) = BitVec.ofNat 32 (mask.toNat * 2 ^ 13) := by
  apply BitVec.eq_of_toNat_eq
  have := mask.isLt
  simp only [toNat_append_add, BitVec.toNat_ofNat]
  omega

theorem missIndex_eq (free : BitVec 6) : (1#1 ++ 0#25 ++ free : Word32) = 0x80000000#32 ||| free.setWidth 32 := by
  revert free
  decide

/-- An instruction whose EX stage changes CP0 only. -/
theorem completes_cp0Only {i : Instr} {s st : State} {c : Cp0} {imm : Bool} (hex : exOf i s = .ok { st := st, immWrite := imm })
    (hst : st = { s with cp0 := c, hz := st.hz, draws := st.draws }) : Completes i s (Cp0Only s · c) := by
  unfold Completes
  rw [exec_eq_finish, hex]
  exact cp0Only_ok c imm hst

section
variable {s : State} (hcp0 : cp0Usable s.cp0.status = true)
include hcp0

/-- TLBR of an entry (R593). -/
theorem exOf_tlbr {j : Fin 32} (hj : j.val = indexField s.cp0) :
    exOf .tlbr s = .ok { st := s.tlbRead s.tlb[j], immWrite := true } := by
  rw [show exOf .tlbr s = tlbReadOut s from withCp0_usable _ hcp0, tlbReadOut, ← hj, Vector.getElem?_eq_getElem j.isLt]
  rfl

/-- TLBP by the index picked (R596). -/
theorem completes_tlbp {i : Fin 32} (h : tlbPick s.params.tlbMultimatch s.recency
    (tlbMatches s.tlb (vaVpn2 s.cp0.entryHi) (vaRegion s.cp0.entryHi) (ehAsid s.cp0.entryHi)) = .hit i.val) :
    Completes .tlbp s (Cp0Only s · { s.cp0 with index := BitVec.ofNat 32 i.val }) := by
  refine completes_cp0Only (imm := true) (st := { s with cp0 := { s.cp0 with index := BitVec.ofNat 32 i.val } }) ?_ rfl
  rw [show exOf .tlbp s = tlbProbeOut s from withCp0_usable _ hcp0]
  simp only [tlbProbeOut, h]

/-- TLBP when no entry matches. -/
theorem completes_tlbp_miss (h : tlbPick s.params.tlbMultimatch s.recency
    (tlbMatches s.tlb (vaVpn2 s.cp0.entryHi) (vaRegion s.cp0.entryHi) (ehAsid s.cp0.entryHi)) = .miss) :
    Completes .tlbp s (Cp0Only s · { s.cp0 with index := 0x80000000#32 ||| (s.drawn.setWidth 6).setWidth 32 }) := by
  rw [← missIndex_eq]
  refine completes_cp0Only (imm := true)
    (st := { s.drew 1 with cp0 := { s.cp0 with index := 1#1 ++ 0#25 ++ s.drawn.setWidth 6 } }) ?_ rfl
  rw [show exOf .tlbp s = tlbProbeOut s from withCp0_usable _ hcp0]
  simp only [tlbProbeOut, h]

end

/-- Settles O41: the fields of the entry read, and the index picked among the matches. -/
theorem tlbReadAndProbeResults : Obligations.TlbReadAndProbeResults := by
  intro s hcp0 hits i
  have hl : Lists (tlbMatches s.tlb (vaVpn2 s.cp0.entryHi) (vaRegion s.cp0.entryHi) (ehAsid s.cp0.entryHi)) (hits · = true) :=
    lists_tlbMatches _ _ _ _
  have hno : ∀ {j}, hits j = false → ¬ hits j = true := Bool.eq_false_iff.mp
  refine ⟨fun hi => refuses_of_exOf_stop ?_, fun j hj => ?_, fun i hi hall => ?_, fun h => ?_, fun a b hab ha hb => ?_,
    fun hq hi => ?_⟩
  · rw [show exOf .tlbr s = tlbReadOut s from withCp0_usable _ hcp0, tlbReadOut,
      show s.tlb[indexField s.cp0]? = none from Vector.getElem?_eq_none hi]
    rfl
  · refine ⟨if s.drawn.getLsbD 0 then (s.tlb[j]).vpn2 else (s.tlb[j]).vpn2 &&& ~~~((s.tlb[j]).mask.setWidth 27), ?_, ?_⟩
    · split
      · exact .inl rfl
      · exact .inr rfl
    · have hread : Completes .tlbr s (Cp0Only s · (s.tlbRead s.tlb[j]).cp0) := completes_cp0Only (exOf_tlbr hcp0 hj) rfl
      simp only [State.tlbRead, pageMask_eq, makeEntryHi_eq, loFromPage_eq] at hread
      exact hread
  · exact completes_tlbp hcp0 (hl.pick_one _ hi fun j hj => hno (hall j hj))
  · exact ⟨s.drawn.setWidth 6, completes_tlbp_miss hcp0 (hl.pick_none _ fun j => hno (h j))⟩
  · refine ⟨fun hp => refuses_of_exOf_stop ?_, fun hp i hlow => completes_tlbp hcp0 ?_,
      fun hp => ⟨fun i later earlier hi hr hlater => completes_tlbp hcp0 ?_, fun hnone i hlow => completes_tlbp hcp0 ?_⟩⟩
    · rw [show exOf .tlbp s = tlbProbeOut s from withCp0_usable _ hcp0]
      simp only [tlbProbeOut, hp, hl.pick_refuse hab ha hb]
      rfl
    · rw [hp]
      exact hl.pick_lowest hlow.1 fun j hj => hno (hlow.2 j hj)
    · rw [hp]
      exact hl.pick_recent hi hr fun j hj => hno (hlater j hj)
    · rw [hp]
      exact hl.pick_unrecorded hlow.1 (fun j hj => hno (hlow.2 j hj)) hnone
  · exact ⟨_, exec_tlbwi hcp0 hq hi, by rw [advance_recency]; rfl⟩

/-! ## Translation through an entry (R170, R190, R192) -/

/-- A legal mask covers an initial run of bits, and the page is that much wider than 4 KiB (R67, R190). -/
theorem legalMask_bits {mask : BitVec 12} (h : legalMask mask = true) : ∃ n ≤ 12, pageBits mask = 12 + n ∧
    mask.setWidth 27 = BitVec.ofNat 27 (2 ^ n - 1) := by
  simp only [legalMask, Bool.or_eq_true, beq_iff_eq] at h
  rcases h with (((((rfl | rfl) | rfl) | rfl) | rfl) | rfl) | rfl
  · exact ⟨0, by decide⟩
  · exact ⟨2, by decide⟩
  · exact ⟨4, by decide⟩
  · exact ⟨6, by decide⟩
  · exact ⟨8, by decide⟩
  · exact ⟨10, by decide⟩
  · exact ⟨12, by decide⟩

/-- Numbers that agree outside the low `n` bits have the same quotient. -/
theorem and_not_ones_eq_iff {w : Nat} (x y : BitVec w) (n : Nat) :
    x &&& ~~~BitVec.ofNat w (2 ^ n - 1) = y &&& ~~~BitVec.ofNat w (2 ^ n - 1) ↔ x.toNat / 2 ^ n = y.toNat / 2 ^ n := by
  rw [← BitVec.toNat_inj, toNat_and_not_low, toNat_and_not_low]
  have hx := Nat.div_add_mod x.toNat (2 ^ n)
  have hy := Nat.div_add_mod y.toNat (2 ^ n)
  refine ⟨fun h => Nat.eq_of_mul_eq_mul_left (Nat.two_pow_pos n) (by omega), fun h => ?_⟩
  rw [h] at hx
  omega

/-- The part of a page number above the mask is that part of the address (R190). -/
theorem vaVpn2_div (va : Word) {n : Nat} (hn : n ≤ 12) :
    (vaVpn2 va).toNat / 2 ^ n = va.toNat / 2 ^ (12 + n + 1) % 2 ^ (39 - (12 + n)) := by
  rw [vaVpn2, BitVec.extractLsb'_toNat, Nat.shiftRight_eq_div_pow, show (2 : Nat) ^ 27 = 2 ^ n * 2 ^ (39 - (12 + n)) by
    rw [← Nat.pow_add]; congr 1; omega, Nat.mod_mul_right_div_self, Nat.div_div_eq_div_mul, ← Nat.pow_add]
  congr 3
  omega

theorem matchesPage_iff (x : TlbEntry) (vpn2 : BitVec 27) (r : BitVec 2) (asid : BitVec 8) :
    x.matchesPage vpn2 r asid = true ↔ x.vpn2 &&& ~~~(x.mask.setWidth 27) = vpn2 &&& ~~~(x.mask.setWidth 27) ∧ x.r = r ∧
      (x.g = true ∨ x.asid = asid) := by
  simp only [TlbEntry.matchesPage, Bool.and_eq_true, Bool.or_eq_true, beq_iff_eq, and_assoc]

/-- The frame's page with the address's own offset, inside the physical space (R190). -/
theorem framePa_toNat {mask : BitVec 12} {pfn : BitVec 24} (va : Word) (h : pfn.toNat < 2 ^ 20) :
    (framePa mask pfn va).toNat % 2 ^ pageBits mask = va.toNat % 2 ^ pageBits mask ∧
      (framePa mask pfn va).toNat / 2 ^ pageBits mask = pfn.toNat * 4096 / 2 ^ pageBits mask := by
  have hle := pageBits_le mask
  generalize hk : pageBits mask = k at hle
  have hpos := Nat.two_pow_pos k
  have hq : pfn.toNat * 4096 / 2 ^ k < 2 ^ (32 - k) := by
    apply Nat.div_lt_of_lt_mul
    rw [← Nat.pow_add, show k + (32 - k) = 32 by omega]
    omega
  have hmod := Nat.mod_lt va.toNat hpos
  have hlt : pfn.toNat * 4096 / 2 ^ k * 2 ^ k + va.toNat % 2 ^ k < 2 ^ 32 := by
    calc pfn.toNat * 4096 / 2 ^ k * 2 ^ k + va.toNat % 2 ^ k < (pfn.toNat * 4096 / 2 ^ k + 1) * 2 ^ k := by
          rw [Nat.add_mul, Nat.one_mul]; omega
      _ ≤ 2 ^ (32 - k) * 2 ^ k := Nat.mul_le_mul_right _ hq
      _ = 2 ^ 32 := by rw [← Nat.pow_add, show 32 - k + k = 32 by omega]
  simp only [framePa, hk, BitVec.toNat_ofNat, Nat.mod_eq_of_lt hlt]
  constructor
  · rw [Nat.mul_add_mod_self_right, Nat.mod_mod]
  · rw [Nat.add_comm, Nat.add_mul_div_right _ _ hpos, Nat.div_eq_of_lt hmod, Nat.zero_add]

theorem pfn_beyond_iff (pfn : BitVec 24) : pfn.extractLsb' 20 4 = 0#4 ↔ pfn.toNat < 2 ^ 20 := by
  rw [← BitVec.toNat_inj, BitVec.extractLsb'_toNat, Nat.shiftRight_eq_div_pow]
  have := pfn.isLt
  simp only [BitVec.toNat_ofNat]
  omega

/-- What an entry makes of an address: the checks in their order, then the frame (R170, R192). -/
theorem translateEntry_outcomes (seg : Segment) (x : TlbEntry) (va : Word) (kind : AccessKind) :
    (legalMask x.mask = false → translateEntry seg x va kind = .stop .illegalPageMask) ∧
    (legalMask x.mask = true →
      ((x.page va).v = false → translateEntry seg x va kind = .raise (.tlbInvalid kind va)) ∧
      ((x.page va).v = true → kind = .store → (x.page va).d = false →
        translateEntry seg x va kind = .raise (.tlbModified va)) ∧
      ((x.page va).v = true → (kind = .store → (x.page va).d = true) →
        (2 ^ 20 ≤ (x.page va).pfn.toNat → translateEntry seg x va kind = .stop .pfnBeyondPhysical) ∧
        ((x.page va).pfn.toNat < 2 ^ 20 → translateEntry seg x va kind =
          .ok seg (framePa x.mask (x.page va).pfn va) (algCached (x.page va).c)))) := by
  unfold translateEntry
  refine ⟨fun h => by simp [h], fun h => ⟨fun hv => by simp [h, hv], fun hv hk hd => by simp [h, hv, hk, hd],
    fun hv hd => ?_⟩⟩
  have hstore : (kind == .store && !(x.page va).d) = false := by
    cases kind <;> simp_all
  constructor
  · intro hp
    have := mt (pfn_beyond_iff (x.page va).pfn).mp (Nat.not_lt.mpr hp)
    simp [h, hv, hstore, this]
  · intro hp
    have := (pfn_beyond_iff (x.page va).pfn).mpr hp
    simp [h, hv, hstore, this]

section
variable {c : TransCtx} {va : Word} {kind : AccessKind} {m : SegMode} {seg : Segment} (hm : segMode c.status = some m)
  (herl : erlUpper m va = false) (hres : resolveIn m va = some seg) (hmapped : seg.mapped = true)
include hm herl hres hmapped

/-- A mapped address is looked up in the TLB. -/
theorem translate_mapped : translate c va kind = translateMapped c seg va kind := by
  simp [translate, hm, herl, hres, hmapped]

/-- Through the entry picked. -/
theorem translate_hit {j : Fin 32} (h : tlbPick c.multimatch c.recency
    (tlbMatches c.tlb (vaVpn2 va) (vaRegion va) (ehAsid c.entryHi)) = .hit j.val) :
    translate c va kind = translateEntry seg c.tlb[j] va kind := by
  rw [translate_mapped hm herl hres hmapped]
  simp [translateMapped, h]

theorem translate_miss (h : tlbPick c.multimatch c.recency
    (tlbMatches c.tlb (vaVpn2 va) (vaRegion va) (ehAsid c.entryHi)) = .miss) :
    translate c va kind = .raise (.tlbRefill kind va (mode64 c.status)) := by
  rw [translate_mapped hm herl hres hmapped]
  simp only [translateMapped, h]

theorem translate_multiple (h : tlbPick c.multimatch c.recency
    (tlbMatches c.tlb (vaVpn2 va) (vaRegion va) (ehAsid c.entryHi)) = .multiple) :
    translate c va kind = .stop .tlbMultipleMatch := by
  rw [translate_mapped hm herl hres hmapped]
  simp only [translateMapped, h]

end

/-- The lowest of the entries that match. -/
theorem exists_lowest {hits : Fin 32 → Prop} {i : Fin 32} (hi : hits i) : ∃ j, hits j ∧ ∀ l : Fin 32, l < j → ¬ hits l := by
  by_cases hlower : ∃ l, l < i ∧ hits l
  · obtain ⟨l, _, hl⟩ := hlower
    exact exists_lowest hl
  · exact ⟨i, hi, fun l hlt hl => hlower ⟨l, hlt, hl⟩⟩
termination_by i

/-- Which addresses the entry of the CP0 registers matches (R190, R194). -/
theorem tlbEntryFromCp0_matches_iff (c : Cp0) (va : Word) (asid : BitVec 8) (h : legalMask (tlbEntryFromCp0 c).mask = true) :
    (tlbEntryFromCp0 c).matchesPage (vaVpn2 va) (vaRegion va) asid = true ↔
      (va.toNat / 2 ^ (pageBits (tlbEntryFromCp0 c).mask + 1) % 2 ^ (39 - pageBits (tlbEntryFromCp0 c).mask) =
        c.entryHi.toNat / 2 ^ (pageBits (tlbEntryFromCp0 c).mask + 1) % 2 ^ (39 - pageBits (tlbEntryFromCp0 c).mask) ∧
        vaRegion va = vaRegion c.entryHi) ∧
      ((c.entryLo0.getLsbD 0 = true ∧ c.entryLo1.getLsbD 0 = true) ∨ asid = ehAsid c.entryHi) := by
  obtain ⟨n, hn, hk, hmask⟩ := legalMask_bits h
  rw [matchesPage_iff, hmask, and_not_ones_eq_iff, hk, ← vaVpn2_div va hn, ← vaVpn2_div c.entryHi hn, and_assoc, eq_comm,
    eq_comm (a := vaRegion va), eq_comm (a := asid), ← Bool.and_eq_true]
  rfl

theorem Lists.congr {found : List Nat} {hits hits' : Fin 32 → Prop} (h : Lists found hits) (hh : ∀ j, hits j ↔ hits' j) :
    Lists found hits' where
  rising := h.rising
  mem := fun i => (h.mem i).trans (exists_congr fun hi => hh ⟨i, hi⟩)

theorem algCached_eq (c : BitVec 3) : algCached c = decide (c ≠ 2#3) := by
  revert c
  decide

/-- Settles O40: the entry picked is the one written, and it translates as its fields say. -/
theorem tlbRoundTrip : Obligations.TlbRoundTrip := by
  intro s t later va kind m seg hcp0 hq i e k samePage sameSpace r hits through hi hex hm herl hres hmapped
  obtain rfl := Host.Outcome.next.inj ((exec_tlbwi hcp0 hq hi).symm.trans hex)
  let t := ((s.tlbWrite i e).noteCp0Write s).advance .seq
  let w : Fin 32 := ⟨i, hi⟩
  have htlb : t.tlb = (s.tlbWrite i e).tlb := advance_tlb _ _
  have hw : t.tlb[w] = e := by rw [htlb]; exact tlbWrite_same s e (j := w) rfl
  have hmulti : t.transCtx.multimatch = s.params.tlbMultimatch := congrArg Params.tlbMultimatch (advance_params _ _)
  have hrec : t.transCtx.recency = [] ++ i :: s.recency.filter (fun j => j != i) := advance_recency _ _
  have hl : Lists (tlbMatches t.tlb (vaVpn2 va) (vaRegion va) (ehAsid later)) (fun j => hits t.tlb[j]) :=
    (lists_tlbMatches _ _ _ _).congr fun j => matchesPage_iff _ _ _ _
  have hthrough : ∀ x, r = translateEntry seg x va kind → through x := by
    intro x hx
    obtain ⟨hmask, hlegal⟩ := translateEntry_outcomes seg x va kind
    rw [← hx] at hmask hlegal
    refine ⟨hmask, fun h => ⟨(hlegal h).1, (hlegal h).2.1, fun hv hd => ⟨((hlegal h).2.2 hv hd).1, fun hp => ?_⟩⟩⟩
    exact ⟨_, _, ((hlegal h).2.2 hv hd).2 hp, (framePa_toNat va hp).1, (framePa_toNat va hp).2, algCached_eq _⟩
  have hhit : ∀ j : Fin 32, tlbPick t.transCtx.multimatch t.transCtx.recency
      (tlbMatches t.tlb (vaVpn2 va) (vaRegion va) (ehAsid later)) = .hit j.val → through t.tlb[j] :=
    fun j hj => hthrough _ (translate_hit (c := { t.transCtx with entryHi := later }) hm herl hres hmapped hj)
  refine ⟨fun j hj => ?_, fun hnone => ⟨fun he => ?_, fun he => ?_⟩,
    fun ⟨j, hj, hhj⟩ he => ⟨fun hp => ?_, fun hp => ?_, fun hp => ?_⟩⟩
  · obtain rfl : j = w := Fin.ext hj
    exact ⟨hw, fun hlegal => (matchesPage_iff e _ _ _).symm.trans (tlbEntryFromCp0_matches_iff s.cp0 va _ hlegal)⟩
  · rw [← hw] at he ⊢
    exact hhit w (hl.pick_one _ he fun j hj => hnone j fun h => hj (Fin.ext h))
  · refine translate_miss (c := { t.transCtx with entryHi := later }) hm herl hres hmapped (hl.pick_none _ fun j => ?_)
    by_cases hj : j = w
    · rw [hj, hw]; exact he
    · exact hnone j fun h => hj (Fin.ext h)
  · have hne : j ≠ w := fun h => hj (congrArg Fin.val h)
    refine translate_multiple (c := { t.transCtx with entryHi := later }) hm herl hres hmapped ?_
    rw [show ({ t.transCtx with entryHi := later } : TransCtx).multimatch = .refuse from hmulti.trans hp]
    exact hl.pick_refuse hne hhj (hw ▸ he)
  · rw [← hw] at he ⊢
    refine hhit w ?_
    rw [hmulti, hp]
    exact hl.pick_recent he hrec (fun j hj => by cases hj)
  · obtain ⟨l, hlow, hmin⟩ := exists_lowest (hits := fun j => hits t.tlb[j]) hhj
    refine ⟨l, hlow, hmin, hhit l ?_⟩
    rw [hmulti, hp]
    exact hl.pick_lowest hlow hmin

end Sys2Proof.Machine
end

section
/-! PROOFS. The instruction cache and the CACHE operations where the address translates (20_memory.md R220 to R232, 44_system.md
R620 to R627). -/

namespace Sys2Proof.Machine

/-! ## Lines of the instruction cache -/

@[simp] theorem icLine_setIcLine (s : State) (va : Word) (l : IcLine) : (s.setIcLine va l).icLine va = l := by
  simp [State.icLine, State.setIcLine]

/-- A line of another index is not touched. -/
theorem icLine_setIcLine_ne (s : State) {va va' : Word} (l : IcLine) (h : icIndex va' ≠ icIndex va) :
    (s.setIcLine va l).icLine va' = s.icLine va' := by
  have hne : (icIndex va).toNat ≠ (icIndex va').toNat := fun he => h (BitVec.eq_of_toNat_eq he.symm)
  simp [State.icLine, State.setIcLine, hne]

theorem icProbe_congr {s t : State} {va : Word} (h : t.icLine va = s.icLine va) (pa : PAddr) :
    t.icProbe va pa = s.icProbe va pa := by rw [State.icProbe, State.icProbe, h]

/-- Settles O42: the line set is the line probed. -/
theorem instructionCacheDiscipline : Obligations.InstructionCacheDiscipline := by
  intro s va pa other data
  refine ⟨?_, fun htag => ?_, ?_, fun va' hne => ⟨?_, ?_⟩⟩
  · simp [State.icProbe, State.icFillWith, icTag]
  · simpa [State.icProbe, State.icFillWith, icTag] using htag
  · simp [State.icProbe, State.icInvalidate]
  · exact icProbe_congr (icLine_setIcLine_ne s _ hne) other
  · exact icProbe_congr (icLine_setIcLine_ne s _ hne) other

/-! ## CACHE -/

/-- The state an operation that leaves `st` completes in. -/
def State.inSequence (st : State) : State := { st with pc := nextPc st, delay := none, hz := st.hz.retire }

theorem advance_seq_eq (st : State) : st.advance .seq = st.inSequence := by
  rw [State.advance, State.inSequence, nextPc]
  cases h : st.delay <;> simp [← h]

section
variable {s : State} {op : BitVec 5} {offset : BitVec 16} {base : RegNo} {seg : Segment} {pa : PAddr} {cached : Bool}
  (hcp0 : cp0Usable s.cp0.status = true) (hq : s.params.noopQuirks = false)
  (htr : translate s.transCtx (s.readReg base + BitVec.ofInt 64 offset.toInt) .load = .ok seg pa cached)
include hcp0 hq htr

/-- CACHE is the operation on the translated address (R620). -/
theorem exOf_cache : exOf (.cache op offset base) s = cacheOp op (s.readReg base + BitVec.ofInt 64 offset.toInt) pa s := by
  rw [show exOf (.cache op offset base) s = cacheOut op (effAddr s base offset) s from withCp0_usable _ hcp0, effAddr_eq,
    cacheOut, htr]
  simp [hq]

theorem refuses_cache {r : Refusal} (hop : cacheOp op (s.readReg base + BitVec.ofInt 64 offset.toInt) pa s = .stop r) :
    Refuses (.cache op offset base) s r := refuses_of_exOf_stop ((exOf_cache hcp0 hq htr).trans hop)

/-- An operation on the instruction cache that completes. -/
theorem completes_icache {st : State} {imm : Bool} {mv : Option (ReqType × Nat)} {f : State → Prop}
    (hop : cacheOp op (s.readReg base + BitVec.ofInt 64 offset.toInt) pa s =
      .ok { st := st, immWrite := imm, lineMove := mv })
    (hst : st = { s with
      cp0 := st.cp0, icache := st.icache, mem := st.mem, hz := { s.hz with icBefore := st.hz.icBefore }, draws := st.draws })
    (hf : f st.inSequence) : Completes (.cache op offset base) s
      (fun t => SystemFrame s t ∧ t.tlb = s.tlb ∧ t.dDirty = s.dDirty ∧ t.dMaybe = s.dMaybe ∧ f t) := by
  refine completes_of_exOf_ok ((exOf_cache hcp0 hq htr).trans hop) ⟨SystemOnly.frame ?_, ?_, ?_, ?_, ?_⟩
  · rw [hst]; rfl
  · rw [advance_tlb, hst]
  · rw [advance_dDirty, hst]
  · rw [advance_dMaybe, hst]
  · rw [advance_seq_eq]; exact hf

/-- An operation on the data cache that completes. -/
theorem completes_dcache {st : State} {imm : Bool} {c : Cp0} {dirty may : Nat → Prop}
    (hop : cacheOp op (s.readReg base + BitVec.ofInt 64 offset.toInt) pa s = .ok { st := st, immWrite := imm })
    (hst : st = { s with cp0 := c, dDirty := st.dDirty, dMaybe := st.dMaybe, draws := st.draws })
    (hd : ∀ l, l ∈ st.dDirty ↔ dirty l) (hm : ∀ l, l ∈ st.dMaybe ↔ may l) : Completes (.cache op offset base) s
      (fun t => SystemFrame s t ∧ SameBytes s t ∧ t.tlb = s.tlb ∧ t.icache = s.icache ∧ t.cp0 = c ∧
        ∀ l, (l ∈ t.dDirty ↔ dirty l) ∧ (l ∈ t.dMaybe ↔ may l)) := by
  refine completes_of_exOf_ok ((exOf_cache hcp0 hq htr).trans hop) ⟨SystemOnly.frame ?_, ?_, ?_, ?_, ?_, fun l => ⟨?_, ?_⟩⟩
  · rw [hst]; rfl
  · intro a; rw [advance_mem, hst]
  · rw [advance_tlb, hst]
  · rw [advance_icache, hst]
  · rw [advance_cp0, hst]
  · rw [advance_dDirty]; exact hd l
  · rw [advance_dMaybe]; exact hm l

end

/-- The next fetch sees the line as it was, the one after as it is (R627). -/
theorem hidingLine_unseen (s st : State) (va : Word) :
    (s.hidingLine va st).inSequence.fetchLine va = s.icLine va ∧
      (s.hidingLine va st).inSequence.age.fetchLine va = (s.hidingLine va st).inSequence.icLine va :=
  ⟨if_pos rfl, rfl⟩

theorem tagLo_eq (tag : BitVec 20) (v : Bool) :
    (0#4 ++ tag ++ BitVec.ofBool v ++ 0#7 : Word32) = BitVec.ofNat 32 (tag.toNat * 256 + v.toNat * 128) := by
  apply BitVec.eq_of_toNat_eq
  have := tag.isLt
  have := v.toNat_lt
  simp only [toNat_append_add, BitVec.toNat_ofNat, BitVec.toNat_ofBool]
  omega

/-- An invalidate-hit touches the instruction cache only. -/
theorem icInvalidateHit_eq (s : State) (va : Word) (pa : PAddr) :
    s.icInvalidateHit va pa = { s with icache := (s.icInvalidateHit va pa).icache } := by
  unfold State.icInvalidateHit
  split <;> rfl

theorem icLine_icInvalidateHit (s : State) (va : Word) (pa : PAddr) : (s.icInvalidateHit va pa).icLine va =
    if (s.icLine va).ptag = icTag pa then { s.icLine va with valid := false } else s.icLine va := by
  unfold State.icInvalidateHit
  split
  · exact icLine_setIcLine _ _ _
  · rfl

theorem icLine_icInvalidateHit_ne (s : State) {va va' : Word} (pa : PAddr) (h : icIndex va' ≠ icIndex va) :
    (s.icInvalidateHit va pa).icLine va' = s.icLine va' := by
  unfold State.icInvalidateHit
  split
  · exact icLine_setIcLine_ne _ _ h
  · rfl

theorem busErrorAt_eq_false {s : State} {ty : ReqType} {a n : Nat} (h : ¬ Touches s ty .error a n) :
    busErrorAt s.inputs ty a n = false := Bool.eq_false_iff.mpr fun he => h ((busMeets_iff s ty .error a n).mp he)

/-- The data a fill installs where the bus answers (R621). -/
theorem fillData_of_answered {s : State} {pa : PAddr} (h : ¬ Touches s .read .error (lineBase pa) 32) :
    fillData pa s = BitVec.ofNat 256 (s.busRead (lineBase pa) 32) := by
  rw [fillData, busErrorAt_eq_false h]
  rfl

/-- The write-back of a line that is there and not in the data cache (R621). -/
theorem icacheOp_writeBack {s : State} {va : Word} {pa : PAddr} {l : IcLine} (hl : s.icProbe va pa = some l)
    (hm : anyLine s.dMaybe (lineBase pa) 32 = false) : icacheOp 6#3 va pa s =
      if busErrorAt s.inputs .write (lineBase pa) 32 then cacheMoved .write (lineBase pa) s
      else cacheMoved .write (lineBase pa) { s with mem := s.busWrite (lineBase pa) 32 l.data.toNat } := by
  simp [icacheOp, hl, hm]

/-- Settles O43: each operation by its row of R621. -/
theorem instructionCacheOperations : Obligations.InstructionCacheOperations := by
  intro s offset base seg pa cached hcp0 hq va line on keeps others unseen htr
  refine ⟨completes_icache hcp0 hq htr rfl rfl ⟨rfl, fun _ => rfl, fun va' h => ?_, hidingLine_unseen _ _ _, ?_⟩,
    completes_icache hcp0 hq htr rfl rfl ⟨fun _ => rfl, rfl, ?_⟩,
    completes_icache hcp0 hq htr rfl rfl ⟨rfl, fun _ => rfl, fun va' h => ?_, hidingLine_unseen _ _ _, ?_⟩,
    completes_icache hcp0 hq htr rfl ?_ ⟨?_, fun a => ?_, fun va' h => ?_, hidingLine_unseen _ _ _, ?_⟩,
    fun hd => refuses_cache hcp0 hq htr (if_pos hd), fun hd => ⟨fillData pa s, fillData_of_answered,
      completes_icache hcp0 hq htr ((if_neg (by rw [hd]; decide))) rfl
        ⟨rfl, fun _ => rfl, fun va' h => ?_, hidingLine_unseen _ _ _, ?_⟩⟩,
    fun hp => ?_, fun l hl => ⟨fun hm => ?_, fun hm => ⟨fun he hwf => ?_, fun he => ?_⟩⟩, ?_⟩
  · exact icLine_setIcLine_ne s _ h
  · exact icLine_setIcLine s va _
  · rw [← tagLo_eq]; rfl
  · exact icLine_setIcLine_ne s _ h
  · exact icLine_setIcLine s va _
  · rw [icInvalidateHit_eq]; rfl
  · exact show (s.icInvalidateHit va pa).cp0 = _ by rw [icInvalidateHit_eq]
  · exact show memRead (s.icInvalidateHit va pa).mem a = _ by rw [icInvalidateHit_eq]
  · exact icLine_icInvalidateHit_ne s pa h
  · exact icLine_icInvalidateHit s va pa
  · exact icLine_setIcLine_ne (s.drew 4) _ h
  · exact icLine_setIcLine (s.drew 4) va _
  · refine completes_icache hcp0 hq htr (st := s) (imm := false) (mv := none) ?_ rfl ⟨rfl, fun _ => rfl, rfl⟩
    show icacheOp 6#3 va pa s = _
    simp only [icacheOp, hp, cacheDone]
  · refine refuses_cache hcp0 hq htr ?_
    show icacheOp 6#3 va pa s = _
    simp [icacheOp, hl, hm, ExResult.refuse]
  · refine completes_icache hcp0 hq htr ((icacheOp_writeBack hl hm).trans (if_neg (by rw [busErrorAt_eq_false he]; decide))) rfl
      ⟨rfl, rfl, busStored_busWrite (memWfFrom_of_wf hwf) rfl⟩
  · exact completes_icache hcp0 hq htr ((icacheOp_writeBack hl hm).trans
      (if_pos ((busMeets_iff s .write .error _ _).mpr he))) rfl ⟨rfl, rfl, fun _ => rfl⟩
  · simp only [List.forall_mem_cons, List.not_mem_nil, false_imp_iff, implies_true, and_true]
    exact ⟨refuses_cache hcp0 hq htr rfl, refuses_cache hcp0 hq htr rfl⟩

/-! ## The data cache -/

theorem sameDIndex_iff (va : Word) (l : Nat) : sameDIndex va l = true ↔ l / 16 % 512 = va.toNat / 16 % 512 := by
  rw [sameDIndex, beq_iff_eq, BitVec.extractLsb'_toNat, Nat.shiftRight_eq_div_pow]

theorem line16_eq (pa : PAddr) : line16 pa = pa.toNat - pa.toNat % 16 := by unfold line16; omega

/-- The lines of another index stay (R622). -/
theorem mem_filter_other {lines : List Nat} {va : Word} {l : Nat} :
    l ∈ lines.filter (fun l => !sameDIndex va l) ↔ l ∈ lines ∧ ¬ l / 16 % 512 = va.toNat / 16 % 512 := by
  rw [List.mem_filter, Bool.not_eq_true', ← sameDIndex_iff, Bool.not_eq_true]

theorem mem_lineRemove {lines : List Nat} {pa : PAddr} {l : Nat} :
    l ∈ lineRemove lines (line16 pa) ↔ l ∈ lines ∧ l ≠ pa.toNat - pa.toNat % 16 := by
  rw [lineRemove, List.mem_filter, bne_iff_ne, line16_eq]

/-- The operations with bit 1 set are the secondary caches' (R620). -/
theorem cacheOp_secondary {op : BitVec 5} (va : Word) (pa : PAddr) (s : State) (h : op.extractLsb' 1 1 = 1#1) :
    cacheOp op va pa s = .refuse .secondaryCacheOp := by
  have hbits : ∀ op : BitVec 5, op.extractLsb' 1 1 = 1#1 → op.extractLsb' 0 2 = 2#2 ∨ op.extractLsb' 0 2 = 3#2 := by decide
  rcases hbits op h with h | h <;> rw [cacheOp, h] <;> rfl

/-- Settles O44: each operation by its row of R622. -/
theorem dataCacheOperations : Obligations.DataCacheOperations := by
  intro s offset base seg pa cached hcp0 hq va line same on refuses htr
  have hsame : s.dDirty.any (sameDIndex va) = true ↔ ∃ l ∈ s.dDirty, same l := by
    simp only [List.any_eq_true, sameDIndex_iff]
    rfl
  have hline : s.dDirty.contains (line16 pa) = true ↔ line ∈ s.dDirty := by rw [List.contains_iff_mem, line16_eq]
  refine ⟨completes_dcache hcp0 hq htr rfl rfl (fun _ => mem_filter_other) (fun _ => mem_filter_other),
    ⟨lo32 s.drawn &&& 0x0FFFFFC0#32, ?_, completes_dcache hcp0 hq htr rfl rfl (fun _ => Iff.rfl) (fun _ => Iff.rfl)⟩,
    fun ht => refuses_cache hcp0 hq htr ?_, fun ht => ⟨fun hd => refuses_cache hcp0 hq htr ?_, fun hd => ?_⟩,
    refuses_cache hcp0 hq htr rfl, fun hd => refuses_cache hcp0 hq htr (if_pos (hline.mpr hd)),
    fun hd => completes_dcache hcp0 hq htr (if_neg (mt hline.mp hd)) rfl (fun _ => Iff.rfl) (fun _ => mem_lineRemove),
    completes_dcache hcp0 hq htr rfl rfl (fun _ => mem_lineRemove) (fun _ => mem_lineRemove),
    completes_dcache hcp0 hq htr rfl rfl (fun _ => mem_lineRemove) (fun _ => Iff.rfl), refuses_cache hcp0 hq htr rfl,
    fun op hop => refuses_cache hcp0 hq htr (cacheOp_secondary _ _ _ hop)⟩
  · rw [BitVec.and_assoc]
    exact BitVec.and_zero
  · show dcacheOp 2#3 va pa s = _
    simp [dcacheOp, ht, ExResult.refuse]
  · show dcacheOp 2#3 va pa s = _
    simp [dcacheOp, ht, hsame.mpr hd, ExResult.refuse]
  · have hany : s.dDirty.any (sameDIndex va) = false := Bool.eq_false_iff.mpr fun h => by
      obtain ⟨l, hl, hs⟩ := hsame.mp h
      exact hd l hl hs
    refine completes_dcache hcp0 hq htr (st := { s with dMaybe := s.dMaybe.filter (fun l => !sameDIndex va l) }) (imm := false)
      ?_ rfl (fun _ => Iff.rfl) (fun _ => mem_filter_other)
    show dcacheOp 2#3 va pa s = _
    simp [dcacheOp, ht, hany, cacheDone]

end Sys2Proof.Machine
end

section
/-! PROOFS. The order of an access's checks (43_loadstore.md R502, R640, R660, 20_memory.md R232), and the loads and stores of the
CP1 unit. -/

namespace Sys2Proof.Machine

/-! ## The checks of an access, in their order -/

/-- The byte order that is refused (R140, R141). -/
theorem endianRefusal_littleEndian {c : Cp0} (h : cfgBE c.config = false) : endianRefusal c = some .littleEndian := by
  simp [endianRefusal, h]

theorem endianRefusal_reverseEndian {c : Cp0} (h : cfgBE c.config = true) (hr : (userMode c.status && stRE c.status) = true) :
    endianRefusal c = some .reverseEndian := by
  simp only [endianRefusal, h, hr]
  rfl

theorem endianRefusal_none {c : Cp0} (h : cfgBE c.config = true) (hr : (userMode c.status && stRE c.status) = false) :
    endianRefusal c = none := by
  simp only [endianRefusal, h, hr]
  rfl

/-- What the watch check answers for an access that is watched (R660). -/
theorem watchCheck_watched {s : State} {op : MemOp} {pa : PAddr} (hcp1 : op.isCp1 = false) (h : Watched s pa op.isStore) :
    watchCheck s.cp0 op pa = if stEXL s.cp0.status || stERL s.cp0.status then .refuse else .raise := by
  have hm := (watchMatch_iff s pa op.isStore).mpr h
  simp [watchCheck, hcp1, hm]

theorem watchCheck_unwatched {s : State} {op : MemOp} {pa : PAddr} (h : op.isCp1 = false → ¬ Watched s pa op.isStore) :
    watchCheck s.cp0 op pa = .pass := by
  refine if_neg fun hw => ?_
  rw [Bool.and_eq_true, Bool.not_eq_true', watchMatch_iff] at hw
  exact h hw.1 hw.2

section
variable {i : Instr} {s : State} {op : MemOp} {rt : RegNo} {va data old : Word} (hex : exOf i s = memAccess op rt va data old s)
include hex

theorem takes_of_misaligned (hal : va.toNat % op.alignment ≠ 0) : Takes i s (.addrError op.kind va) :=
  takes_of_exOf_raise (hex.trans (if_pos hal))

variable (hal : va.toNat % op.alignment = 0)
include hal

/-- An access whose translation raises takes the exception (R502). -/
theorem takes_of_translate {e : Exc} (htr : translate s.transCtx va op.kind = .raise e) : Takes i s e := by
  refine takes_of_exOf_raise (hex.trans ?_)
  simp [memAccess, hal, htr]

variable {seg : Segment} {pa : PAddr} {cached : Bool} (htr : translate s.transCtx va op.kind = .ok seg pa cached)
include htr

/-- The byte order comes after the translation and before everything else (log entry 13). -/
theorem access_orders {P : Prop} (hP : endianRefusal s.cp0 = none → P) :
    (s.cp0.config.getLsbD 15 = false → Refuses i s .littleEndian) ∧
    (s.cp0.config.getLsbD 15 = true → (userMode s.cp0.status && s.cp0.status.getLsbD 25) = true → Refuses i s .reverseEndian) ∧
    (s.cp0.config.getLsbD 15 = true → (userMode s.cp0.status && s.cp0.status.getLsbD 25) = false → P) := by
  have hrefuse {r : Refusal} (hen : endianRefusal s.cp0 = some r) : Refuses i s r := by
    refine refuses_of_exOf_stop (hex.trans ?_)
    simp [memAccess, hal, htr, hen, ExResult.refuse]
  exact ⟨fun hbe => hrefuse (endianRefusal_littleEndian hbe), fun hbe hre => hrefuse (endianRefusal_reverseEndian hbe hre),
    fun hbe hre => hP (endianRefusal_none hbe hre)⟩

variable (hen : endianRefusal s.cp0 = none) (hll : op.conditional = true → s.llbit = true)
include hen hll

/-- The rest of an access after the byte order: the watch check, in EX or for a conditional store in DC, then DC (R541, R769). -/
theorem exec_access : exec i s =
    match watchCheck s.cp0 op pa with
    | .pass => finish (.ok { st := s, dest := rt, request := some (requestOf op va pa cached data old) }) s
    | .raise => .next (takeException .watch s)
    | .refuse => .refused .watchAtExceptionLevel := by
  rw [exec_eq_finish, hex]
  simp only [memAccess, hal, ne_eq, not_true_eq_false, if_false, htr, hen]
  by_cases hc : op.conditional = true
  · rw [if_pos hc]
    cases hw : watchCheck s.cp0 op pa
    case pass => rfl
    all_goals
      show finish (.ok { st := s, dest := rt, request := some (requestOf op va pa cached data old) }) s = _
      simp [finish, dcAccess, requestOf, hc, hll hc, hw]
  · rw [if_neg hc]
    cases hw : watchCheck s.cp0 op pa <;> rfl

/-- A watched access (R660). -/
theorem access_watched (hcp1 : op.isCp1 = false) (hw : Watched s pa op.isStore) :
    ((s.cp0.status.getLsbD 1 || s.cp0.status.getLsbD 2) = false → Takes i s .watch) ∧
    ((s.cp0.status.getLsbD 1 || s.cp0.status.getLsbD 2) = true → Refuses i s .watchAtExceptionLevel) := by
  have h := exec_access hex hal htr hen hll
  rw [watchCheck_watched hcp1 hw] at h
  constructor
  · intro (hl : (stEXL s.cp0.status || stERL s.cp0.status) = false)
    rwa [hl] at h
  · intro (hl : (stEXL s.cp0.status || stERL s.cp0.status) = true)
    rwa [hl] at h

variable (hw : op.isCp1 = false → ¬ Watched s pa op.isStore)
include hw

/-- An access the checks let through is DC's. -/
theorem exec_access_dc : exec i s =
    match requestInDc (requestOf op va pa cached data old) rt s with
    | .stop r => .refused r
    | .raise e => .next (takeException e s)
    | .done v st =>
      .next ((writeBack (if op.isCp1 then 0#5 else rt) v (requestOf op va pa cached data old).linkPa false st).advance .seq) := by
  rw [exec_access hex hal htr hen hll, watchCheck_unwatched hw]
  have hdc : dcAccess (requestOf op va pa cached data old) rt s = requestInDc (requestOf op va pa cached data old) rt s := by
    by_cases hc : op.conditional = true
    · have hc' : (requestOf op va pa cached data old).op.conditional = true := hc
      have hw' : watchCheck s.cp0 (requestOf op va pa cached data old).op (requestOf op va pa cached data old).pa = .pass :=
        watchCheck_unwatched hw
      simp only [dcAccess, hc', if_true, hll hc, hw']
    · exact if_neg hc
  simp only [finish, hdc]
  rfl

/-- The bookkeeping's refusals, then a bus error (R232, R626, R146). -/
theorem access_goesOn :
    (cached = true → va.getLsbD 12 ≠ pa.getLsbD 12 → Refuses i s .virtualAlias) ∧
    (cached = false → op.isStore = false → line16 pa ∈ s.dDirty → Refuses i s .uncachedReadOfDirty) ∧
    (cached = false → op.isStore = true → line16 pa ∈ s.dMaybe → Refuses i s .uncachedWriteToCached) ∧
    (Allowed s op.isStore cached va pa → Touches s op.reqType .error (op.firstByte pa).toNat (op.byteCount pa) →
      Takes i s .dataBusError) := by
  have hdc := exec_access_dc hex hal htr hen hll hw
  have hrefuse {r : Refusal} (hb : bookRefusal s op.isStore cached va pa = some r) : Refuses i s r := by
    have : requestInDc (requestOf op va pa cached data old) rt s = .stop r := by simp [requestInDc, requestOf, hb]
    rwa [this] at hdc
  refine ⟨fun hc h => hrefuse ?_, fun hc hs h => hrefuse ?_, fun hc hs h => hrefuse ?_, fun ha he => ?_⟩
  · rw [bookRefusal, if_pos hc, if_pos (bne_iff_ne.mpr h)]
  · simp [bookRefusal, hc, hs, h]
  · simp [bookRefusal, hc, hs, h]
  · have : requestInDc (requestOf op va pa cached data old) rt s = .raise .dataBusError := by
      have hb := (bookRefusal_none_iff s op.isStore cached va pa).mpr ha
      have he := (busMeets_iff s op.reqType .error _ _).mpr he
      simp [requestInDc, requestOf, hb, busErrorAt, he]
    rwa [this] at hdc

end

/-! ## The instructions that make an access -/

/-- The integer loads and stores with their operations. -/
def integerAccesses (rt : RegNo) (offset : BitVec 16) (base : RegNo) : List (MemOp × Instr) :=
  [(.lb, .lb rt offset base), (.lbu, .lbu rt offset base), (.lh, .lh rt offset base), (.lhu, .lhu rt offset base),
    (.lw, .lw rt offset base), (.lwu, .lwu rt offset base), (.ld, .ld rt offset base), (.lwl, .lwl rt offset base),
    (.lwr, .lwr rt offset base), (.ldl, .ldl rt offset base), (.ldr, .ldr rt offset base), (.sb, .sb rt offset base),
    (.sh, .sh rt offset base), (.sw, .sw rt offset base), (.sd, .sd rt offset base), (.swl, .swl rt offset base),
    (.swr, .swr rt offset base), (.sdl, .sdl rt offset base), (.sdr, .sdr rt offset base), (.ll, .ll rt offset base),
    (.lld, .lld rt offset base), (.sc, .sc rt offset base), (.scd, .scd rt offset base)]

theorem exOf_integerAccesses (s : State) (rt : RegNo) (offset : BitVec 16) (base : RegNo) :
    ∀ x ∈ integerAccesses rt offset base, x.1.isCp1 = false ∧ exOf x.2 s = loadStore x.1 rt offset base s := by
  simp only [integerAccesses, List.forall_mem_cons, List.not_mem_nil, false_imp_iff, implies_true, and_true]
  and_intros <;> rfl

/-- The CP1 loads and stores with their operations. -/
def cp1Accesses (rt : RegNo) (offset : BitVec 16) (base : RegNo) : List (MemOp × Instr) :=
  [(.lwc1, .lwc1 rt offset base), (.ldc1, .ldc1 rt offset base), (.swc1, .swc1 rt offset base), (.sdc1, .sdc1 rt offset base)]

/-- With a unit, a CP1 load or store is the access of its operation. -/
theorem exOf_cp1Access {s : State} (rt : RegNo) (offset : BitVec 16) (base : RegNo) (hcu : s.cp0.status.getLsbD 29 = true)
    (hp : s.params.cp1Present = true) :
    exOf (.lwc1 rt offset base) s =
      memAccess .lwc1 rt (s.readReg base + BitVec.ofInt 64 offset.toInt) (fprRead s rt) 0#64 s ∧
    exOf (.ldc1 rt offset base) s =
      memAccess .ldc1 rt (s.readReg base + BitVec.ofInt 64 offset.toInt) (fprRead s rt) 0#64 s ∧
    exOf (.swc1 rt offset base) s =
      memAccess .swc1 rt (s.readReg base + BitVec.ofInt 64 offset.toInt) (fprRead s rt) 0#64 s ∧
    exOf (.sdc1 rt offset base) s =
      memAccess .sdc1 rt (s.readReg base + BitVec.ofInt 64 offset.toInt) (fprRead s rt) 0#64 s := by
  rw [← effAddr_eq]
  exact ⟨withCp1_present _ hcu hp, withCp1_present _ hcu hp, withCp1_present _ hcu hp, withCp1_present _ hcu hp⟩

theorem exOf_cp1Accesses {s : State} (rt : RegNo) (offset : BitVec 16) (base : RegNo) (hcu : s.cp0.status.getLsbD 29 = true)
    (hp : s.params.cp1Present = true) : ∀ x ∈ cp1Accesses rt offset base,
      (x.1.isCp1 = true ∧ x.1.conditional = false ∧ x.1.ops64 = false) ∧
      exOf x.2 s = memAccess x.1 rt (s.readReg base + BitVec.ofInt 64 offset.toInt) (fprRead s rt) 0#64 s := by
  obtain ⟨hlwc1, hldc1, hswc1, hsdc1⟩ := exOf_cp1Access rt offset base hcu hp
  simp only [cp1Accesses, List.forall_mem_cons, List.not_mem_nil, false_imp_iff, implies_true, and_true]
  exact ⟨⟨by decide, hlwc1⟩, ⟨by decide, hldc1⟩, ⟨by decide, hswc1⟩, ⟨by decide, hsdc1⟩⟩

/-- DC always completes a request nothing stands in the way of. -/
theorem performRequest_done (rq : MemReq) (rt : RegNo) (s : State) : ∃ v st, performRequest rq rt s = .done v st := by
  unfold performRequest
  dsimp only
  split
  · exact ⟨_, _, rfl⟩
  · split <;> exact ⟨_, _, rfl⟩

/-- An access that goes through completes. -/
theorem exec_accessible {i : Instr} {s : State} {op : MemOp} {rt : RegNo} {va data old : Word} {pa : PAddr} {cached : Bool}
    (hex : exOf i s = memAccess op rt va data old s) (h : Accessible op va s pa cached)
    (hll : op.conditional = true → s.llbit = true) {v : Word} {st : State}
    (hperf : performRequest (requestOf op va pa cached data old) rt s = .done v st) : exec i s =
      .next ((writeBack (if op.isCp1 then 0#5 else rt) v (requestOf op va pa cached data old).linkPa false st).advance .seq) := by
  rw [exec_eq_finish, hex, memAccess_accessible rt data old h]
  simp only [finish, dcAccess_accessible rt data old h hll, hperf]
  rfl

/-- Settles O31: the checks in their order, for the integer forms, the CP1 forms and CACHE. -/
theorem accessExceptions : Obligations.AccessExceptions := by
  intro s rt offset base op i operation va be re level orders goesOn
  refine ⟨fun hmem h64 hal => ?_, fun hcu hp => ⟨fun hal => ?_, fun hal => ?_, fun hmem hal => ?_⟩, fun hcp0 => ⟨fun e htr => ?_,
    fun seg pa cached htr hq => ?_⟩⟩
  · obtain ⟨hcp1, hls⟩ := exOf_integerAccesses s rt offset base (op, i) hmem
    have hex := hls.trans (loadStore_allowed rt offset base h64)
    rw [effAddr_eq] at hex
    exact ⟨fun e htr => takes_of_translate hex hal htr, fun seg pa cached htr => access_orders hex hal htr fun hen hll =>
      ⟨fun hw => access_watched hex hal htr hen hll hcp1 hw, fun hw => access_goesOn hex hal htr hen hll fun _ => hw⟩⟩
  · obtain ⟨hlwc1, _, hswc1, _⟩ := exOf_cp1Access rt offset base hcu hp
    exact ⟨takes_of_misaligned (op := .lwc1) hlwc1 hal, takes_of_misaligned (op := .swc1) hswc1 hal⟩
  · obtain ⟨_, hldc1, _, hsdc1⟩ := exOf_cp1Access rt offset base hcu hp
    exact ⟨takes_of_misaligned (op := .ldc1) hldc1 hal, takes_of_misaligned (op := .sdc1) hsdc1 hal⟩
  · obtain ⟨⟨hcp1, hcond, hops⟩, hex⟩ := exOf_cp1Accesses rt offset base hcu hp (op, i) hmem
    have hll : op.conditional = true → s.llbit = true := fun h => absurd (hcond.symm.trans h) (by decide)
    have hunwatched {P : Prop} : op.isCp1 = false → P := fun h => absurd (hcp1.symm.trans h) (by decide)
    refine ⟨fun e htr => takes_of_translate hex hal htr, fun seg pa cached htr => access_orders hex hal htr fun hen =>
      ⟨access_goesOn hex hal htr hen hll hunwatched, fun ha ht => ?_⟩⟩
    obtain ⟨v, st, hperf⟩ := performRequest_done (requestOf op va pa cached (fprRead s rt) 0#64) rt s
    have hacc : Accessible op va s pa cached :=
      { translated := ⟨seg, htr⟩, order := hen, unwatched := hunwatched, booked := ha, answered := ht, aligned := hal
        allowed := fun h => absurd (hops.symm.trans h) (by decide) }
    exact ⟨_, exec_accessible hex hacc hll hperf, trivial⟩
  · refine takes_of_exOf_raise ?_
    rw [show exOf (.cache operation offset base) s = cacheOut operation (effAddr s base offset) s from withCp0_usable _ hcp0,
      effAddr_eq, cacheOut, htr]
  · refine completes_resultFor (v := 0#64) ?_ rfl
    rw [show exOf (.cache operation offset base) s = cacheOut operation (effAddr s base offset) s from withCp0_usable _ hcp0,
      effAddr_eq, cacheOut, htr]
    simp [hq, resultFor]

/-! ## The CP1 loads and stores (R640) -/

theorem fprRead_set {s t : State} {ft : RegNo} {w : Word} (h : t.cp1.fpr = s.cp1.fpr.setIfInBounds ft.toNat w) (r : RegNo) :
    fprRead t r = if r = ft then w else fprRead s r := by
  have hr := r.isLt
  simp only [fprRead, h, Vector.getElem_setIfInBounds]
  split
  · next he => rw [if_pos (BitVec.eq_of_toNat_eq he.symm)]
  · next he => rw [if_neg fun hr => he (by rw [hr])]

/-- The state a CP1 load leaves before the advance of the pc. -/
def cp1Loaded (s : State) (pa : PAddr) (cached : Bool) (ft : RegNo) (w : Word) (draws : Nat) : State :=
  { s.book false cached pa with cp1 := { s.cp1 with fpr := s.cp1.fpr.setIfInBounds ft.toNat w }, draws := draws }

theorem performRequest_lwc1 (s : State) (ft : RegNo) (va data : Word) (pa : PAddr) (cached : Bool) :
    performRequest (requestOf .lwc1 va pa cached data 0#64) ft s = .done 0#64 (cp1Loaded s pa cached ft
      (s.drawn.extractLsb' 32 32 ++ lo32 ((BitVec.ofNat 32 (s.busRead pa.toNat 4)).setWidth 64))
      ((s.afterRead pa.toNat 4).drew 1).draws) := by
  cases cached <;> rfl

theorem performRequest_ldc1 (s : State) (ft : RegNo) (va data : Word) (pa : PAddr) (cached : Bool) :
    performRequest (requestOf .ldc1 va pa cached data 0#64) ft s = .done 0#64 (cp1Loaded s pa cached ft
      (BitVec.ofNat 64 (s.busRead pa.toNat 8)) (s.afterRead pa.toNat 8).draws) := by
  cases cached <;> rfl

section
variable {i : Instr} {s : State} {op : MemOp} {ft : RegNo} {va data : Word} {pa : PAddr} {cached : Bool}
  (hex : exOf i s = memAccess op ft va data 0#64 s) (hcp1 : op.isCp1 = true) (hcond : op.conditional = false)
  (h : Accessible op va s pa cached)
include hex hcp1 hcond h

/-- A CP1 load changes the unit's register, and nothing else but the bookkeeping and the pc. -/
theorem completes_cp1Load {w : Word} {draws n : Nat}
    (hperf : performRequest (requestOf op va pa cached data 0#64) ft s = .done 0#64 (cp1Loaded s pa cached ft w draws))
    (hlk : op.linked = false) (hw : w.toNat % 256 ^ n = s.busRead pa.toNat n) :
    Completes i s (fun t => (fprRead t ft).toNat % 256 ^ n = s.busRead pa.toNat n ∧
      (∀ r, r ≠ ft → fprRead t r = fprRead s r) ∧ t.cp1.fcr = s.cp1.fcr ∧ t.cp1.cond = s.cp1.cond ∧
      Results s t 0#5 0#64 s.hi s.lo s.llbit s.cp0 ∧ SameBytes s t ∧ Booked s t false cached pa ∧ Sequential s t ∧
      t.tlb = s.tlb ∧ t.icache = s.icache ∧ t.activeSeg = s.activeSeg ∧ t.params = s.params) := by
  have hexec : exec i s = .next ((cp1Loaded s pa cached ft w draws).advance .seq) := by
    rw [exec_accessible hex h (fun hc => absurd (hcond.symm.trans hc) (by decide)) hperf, hcp1]
    simp [requestOf, MemReq.linkPa, hlk, writeBack_plain]
  have hfpr := fprRead_set (s := s) (t := (cp1Loaded s pa cached ft w draws).advance .seq) (ft := ft) (w := w)
    (by rw [advance_cp1]; rfl)
  refine ⟨_, hexec, by rw [hfpr, if_pos rfl]; exact hw, fun r hr => by rw [hfpr, if_neg hr], by rw [advance_cp1]; rfl,
    by rw [advance_cp1]; rfl, ⟨readReg_zero _, fun r _ => ?_, ?_, ?_, ?_, ?_⟩, fun a => ?_, booked_of_eq ?_ ?_,
    (sequential_advance _).of_eq ?_ ?_, ?_, ?_, ?_, ?_⟩
  · exact readReg_congr (by simp [cp1Loaded]) r
  all_goals simp [cp1Loaded]

/-- A CP1 store. -/
theorem completes_cp1Store {P : State → Prop} (hstore : op.isStore = true)
    (hwf : Memory.wf s.mem = true) (hP : ∀ t, Stores op s t 0#5 pa cached data 0#64 → P t) :
    Completes i s (fun t => Stores op s t 0#5 pa cached data 0#64 ∧ P t) := by
  obtain ⟨t, ht, hs⟩ := stores_memAccess ft data 0#64 hstore (fun hc' => absurd (hcond.symm.trans hc') (by decide))
    (memWfFrom_of_wf hwf) h
  rw [hcp1, hcond] at hs
  exact ⟨t, by rw [exec_eq_finish, hex, ht], hs, hP t hs⟩

end

/-- Settles O46: the unit's register from the bus, or its bytes to the bus. -/
theorem cp1LoadsAndStores : Obligations.Cp1LoadsAndStores := by
  intro s ft offset base pa cached hcu hp va loads
  obtain ⟨hlwc1, hldc1, hswc1, hsdc1⟩ := exOf_cp1Access ft offset base hcu hp
  refine ⟨fun h => completes_cp1Load hlwc1 rfl rfl h (performRequest_lwc1 ..) rfl ?_,
    fun h => completes_cp1Load hldc1 rfl rfl h (performRequest_ldc1 ..) rfl ?_,
    fun hwf => ⟨fun h => completes_cp1Store hswc1 rfl rfl h rfl hwf fun _ hs => hs.stored,
      fun h => completes_cp1Store hsdc1 rfl rfl h rfl hwf fun _ hs => hs.stored⟩⟩
  · have := busRead_lt s pa.toNat 4
    rw [lo32_setWidth, toNat_append_add, BitVec.toNat_ofNat]
    omega
  · have := busRead_lt s pa.toNat 8
    rw [BitVec.toNat_ofNat]
    omega

end Sys2Proof.Machine
end

section
/-! PROOFS. The words of the CP1 interface with a unit attached (44_system.md R640). -/

namespace Sys2Proof.Machine

/-! ## The fields of a move -/

theorem move_sub (sub : BitVec 5) (rt fs : RegNo) : (sub ++ rt ++ fs ++ 0#11 : BitVec 26).extractLsb' 21 5 = sub := by
  simp (disch := omega) only [extract_append_high, extract_whole, Nat.reduceSub]

theorem move_rt (sub : BitVec 5) (rt fs : RegNo) : (sub ++ rt ++ fs ++ 0#11 : BitVec 26).extractLsb' 16 5 = rt := by
  simp (disch := omega) only [extract_append_high, extract_append_low, extract_whole, Nat.reduceSub]

theorem move_fs (sub : BitVec 5) (rt fs : RegNo) : (sub ++ rt ++ fs ++ 0#11 : BitVec 26).extractLsb' 11 5 = fs := by
  simp (disch := omega) only [extract_append_high, extract_append_low, extract_whole, Nat.reduceSub]

section
variable (s : State) (rt fs : RegNo)

/-- The moves from the unit. -/
theorem cop1Out_moveFrom :
    cop1Out (0#5 ++ rt ++ fs ++ 0#11) s = resultFor rt (sext64 (lo32 (fprRead s fs))) s ∧
    cop1Out (1#5 ++ rt ++ fs ++ 0#11) s = resultFor rt (fprRead s fs) s ∧
    cop1Out (2#5 ++ rt ++ fs ++ 0#11) s = resultFor rt (sext64 (s.cp1.fcr[fs.toNat]'(by have := fs.isLt; omega))) s := by
  refine ⟨?_, ?_, ?_⟩ <;>
  · unfold cop1Out
    simp only [move_sub, move_rt, move_fs]

/-- The moves to the unit. -/
theorem cop1Out_moveTo :
    cop1Out (4#5 ++ rt ++ fs ++ 0#11) s =
      .ok { st := fprWrite (s.drew 1) fs (s.drawn.extractLsb' 32 32 ++ lo32 (s.readReg rt)), immWrite := true } ∧
    cop1Out (5#5 ++ rt ++ fs ++ 0#11) s = .ok { st := fprWrite s fs (s.readReg rt), immWrite := true } ∧
    cop1Out (6#5 ++ rt ++ fs ++ 0#11) s =
      .ok { st := { s with cp1 := { s.cp1 with
                      fcr := s.cp1.fcr.set fs.toNat (lo32 (s.readReg rt)) (by have := fs.isLt; omega) } },
            immWrite := true } := by
  refine ⟨?_, ?_, ?_⟩ <;>
  · unfold cop1Out
    simp only [move_sub, move_rt, move_fs]

end

/-- Every other word is the unit's. -/
theorem cop1Out_unit {s : State} {payload : BitVec 26}
    (hsub : payload.extractLsb' 21 5 ∉ [0#5, 1#5, 2#5, 4#5, 5#5, 6#5])
    (hcond : payload.extractLsb' 21 5 = 8#5 → 4 ≤ (payload.extractLsb' 16 5).toNat) :
    cop1Out payload s = cp1Unit payload s := by
  unfold cop1Out
  dsimp only
  split
  case h_7 h8 =>
    have hrt := hcond h8
    split
    case h_5 => rfl
    all_goals
      next h => rw [h] at hrt; exact absurd hrt (by decide)
  case h_8 => rfl
  all_goals
    next h => exact absurd (by rw [h]; decide) hsub

/-! ## What a move to the unit changes -/

/-- The state after a word that changes the unit only. -/
structure Cp1Only (s t : State) : Prop where
  results : Results s t 0#5 0#64 s.hi s.lo s.llbit s.cp0
  memory : SameMemory s t
  sequential : Sequential s t
  tlb : t.tlb = s.tlb
  icache : t.icache = s.icache
  activeSeg : t.activeSeg = s.activeSeg
  params : t.params = s.params

theorem cp1Only_advance {s st : State} (h : st = { s with cp1 := st.cp1, draws := st.draws }) :
    Cp1Only s (st.advance .seq) where
  results := ⟨readReg_zero _, fun r _ => readReg_congr (by rw [advance_gpr, h]) r, by rw [advance_hi, h], by rw [advance_lo, h],
    by rw [advance_llbit, h], by rw [advance_cp0, h]⟩
  memory := ⟨fun _ => by rw [advance_mem, h], by rw [advance_dDirty, h], by rw [advance_dMaybe, h]⟩
  sequential := (sequential_advance st).of_eq (by rw [h]) (by rw [h])
  tlb := by rw [advance_tlb, h]
  icache := by rw [advance_icache, h]
  activeSeg := by rw [advance_activeSeg, h]
  params := by rw [advance_params, h]

/-- A unit's register after a move to it. -/
theorem fprRead_fprWrite (s t : State) (fs : RegNo) (v : Word) (h : t.cp1 = (fprWrite s fs v).cp1) :
    fprRead t fs = v ∧ (∀ r, r ≠ fs → fprRead t r = fprRead s r) ∧ t.cp1.fcr = s.cp1.fcr ∧ t.cp1.cond = s.cp1.cond := by
  have hread : ∀ r : RegNo, fprRead t r = fprRead (fprWrite s fs v) r := fun r => by simp only [fprRead, h]
  refine ⟨?_, fun r hr => ?_, by rw [h]; rfl, by rw [h]; rfl⟩
  · rw [hread]; simp [fprRead, fprWrite]
  · rw [hread]
    have hne : fs.toNat ≠ r.toNat := fun he => hr (BitVec.eq_of_toNat_eq he.symm)
    simp [fprRead, fprWrite, hne]

theorem lo32_append (x y : Word32) : lo32 (x ++ y) = y := by
  apply BitVec.eq_of_toNat_eq
  rw [lo32, BitVec.toNat_setWidth, toNat_append_add]
  omega

/-- Settles O47: the words of the interface, and the unit's own. -/
theorem cp1MovesAndBranches : Obligations.Cp1MovesAndBranches := by
  intro s rt fs imm hcu hp move writes target branch
  have hex (payload : BitVec 26) : exOf (.cop1 payload) s = cop1Out payload s := withCp1_present _ hcu hp
  have hwrites {t : State} (h : Cp1Only s t) : writes t :=
    ⟨h.results, h.memory, h.sequential, h.tlb, h.icache, h.activeSeg, h.params⟩
  obtain ⟨hmfc1, hdmfc1, hcfc1⟩ := cop1Out_moveFrom s rt fs
  obtain ⟨hmtc1, hdmtc1, hctc1⟩ := cop1Out_moveTo s rt fs
  have hbranch (hd : s.delay = none) (nd tf : Bool) : branch nd tf nd :=
    completes_branchTarget hd ((hex _).trans (cop1Out_branch nd tf imm)) rfl
  refine ⟨completes_resultFor ((hex _).trans hmfc1) rfl, completes_resultFor ((hex _).trans hdmfc1) rfl, ?_, ?_, ?_, ?_,
    fun hd => ⟨hbranch hd _ _, hbranch hd _ _, hbranch hd _ _, hbranch hd _ _⟩,
    fun payload hsub hcond => ⟨fun hr => ?_, fun hr => ?_⟩⟩
  · obtain ⟨t, ht, hg⟩ := completes_resultFor ((hex _).trans hcfc1) rfl
    exact ⟨t, ht, _, Vector.getElem?_eq_getElem _, hg⟩
  · refine completes_of_exOf_ok ((hex _).trans hmtc1) ⟨hwrites (cp1Only_advance rfl), ?_⟩
    obtain ⟨hfs, hrest⟩ := fprRead_fprWrite s _ fs _ (advance_cp1 (fprWrite (s.drew 1) fs _) .seq)
    exact ⟨by rw [hfs, lo32_append], hrest⟩
  · exact completes_of_exOf_ok ((hex _).trans hdmtc1) ⟨hwrites (cp1Only_advance rfl),
      fprRead_fprWrite s _ fs _ (advance_cp1 (fprWrite s fs _) .seq)⟩
  · refine completes_of_exOf_ok ((hex _).trans hctc1) ⟨hwrites (cp1Only_advance rfl), ?_, by rw [advance_cp1], by rw [advance_cp1]⟩
    rw [advance_cp1]
    simp
  · have hout := (hex payload).trans (cop1Out_unit hsub hcond)
    exact completes_of_exOf_ok
      (st := { s with cp1 := (Config.cp1Exec payload (stFR s.cp0.status) s.cp1).1 })
      (hout.trans (if_neg (by rw [hr]; decide)))
      ⟨hwrites (cp1Only_advance rfl), by rw [advance_cp1]⟩
  · have hout := (hex payload).trans (cop1Out_unit hsub hcond)
    rw [exec_eq_finish, hout.trans (if_pos hr), finish_raise]

end Sys2Proof.Machine
end

section
/-! PROOFS. Exception entry (60_exceptions.md R650, R670 to R677), interrupts and the timer (R666, R690 to R701), and the
addresses user and supervisor mode cannot reach (20_memory.md R153, R157). -/

namespace Sys2Proof.Machine

/-! ## Exception entry -/

theorem causeAfter_bd (c : Cp0) (e : Exc) (bd : Bool) (d : Word) :
    (causeAfter c e bd d).getLsbD 31 = if stEXL c.status then c.cause.getLsbD 31 else bd := by
  unfold causeAfter
  iterate 7 rw [BitVec.getLsbD_append, if_neg (by decide)]
  simp

/-- An exception leaves Cause.IP as it is. -/
theorem causeAfter_ip (c : Cp0) (e : Exc) (bd : Bool) (d : Word) :
    (causeAfter c e bd d).extractLsb' 8 8 = c.cause.extractLsb' 8 8 := by
  unfold causeAfter
  rw [extract_append_high _ _ _ _ (by decide), extract_append_high _ _ _ _ (by decide),
    extract_append_high _ _ _ _ (by decide), extract_append_low _ _ _ _ (by decide)]
  exact extract_whole (causeIP c.cause)

/-- Settles O48: the entry field by field; Cause by its own lemmas. -/
theorem exceptionEntry : Obligations.ExceptionEntry := by
  intro s e t code
  have hbd : t.cp0.cause.getLsbD 31 = if stEXL s.cp0.status then s.cp0.cause.getLsbD 31 else s.delay.isSome :=
    causeAfter_bd ..
  have hepc : t.cp0.epc = if stEXL s.cp0.status then s.cp0.epc else if s.delay.isSome then s.pc - 4#64 else s.pc := rfl
  have hcode : e.code = code := by
    cases e with
    | tlbRefill k | tlbInvalid k | addrError k => cases k <;> rfl
    | _ => rfl
  refine ⟨fun hexl => ?_, fun hexl hd => ?_, fun d hexl hd => ?_, (causeAfter_excCode ..).trans hcode, ?_, causeAfter_ip .., rfl,
    rfl, rfl, rfl, rfl, rfl, rfl, rfl, rfl, rfl, rfl, rfl, rfl, rfl, rfl, rfl, rfl, rfl, takeException_cp0 e s⟩
  · rw [hbd, hepc, hexl]
    exact ⟨rfl, rfl⟩
  · rw [hbd, hepc, hexl, hd]
    exact ⟨rfl, rfl⟩
  · rw [hbd, hepc, hexl, hd]
    exact ⟨rfl, rfl⟩
  · rintro n rfl
    exact causeAfter_ce s.cp0 n s.delay.isSome s.drawn

/-! ## What an exception records -/

theorem setBadVpn2_fields (context : Word) (v : BitVec 19) :
    (setBadVpn2 context v).extractLsb' 23 41 = context.extractLsb' 23 41 ∧ (setBadVpn2 context v).extractLsb' 4 19 = v := by
  unfold setBadVpn2
  simp (disch := omega) only [extract_append_high, extract_append_low, extract_whole, Nat.reduceSub, and_self]

theorem setXBadVpn2_fields (xcontext : Word) (r : BitVec 2) (v : BitVec 27) :
    (setXBadVpn2 xcontext r v).extractLsb' 33 31 = xcontext.extractLsb' 33 31 ∧ (setXBadVpn2 xcontext r v).extractLsb' 31 2 = r ∧
      (setXBadVpn2 xcontext r v).extractLsb' 4 27 = v := by
  unfold setXBadVpn2
  simp (disch := omega) only [extract_append_high, extract_append_low, extract_whole, Nat.reduceSub, and_self]

theorem makeEntryHi_fields (r : BitVec 2) (vpn2 : BitVec 27) (asid : BitVec 8) :
    (makeEntryHi r vpn2 asid).extractLsb' 62 2 = r ∧ (makeEntryHi r vpn2 asid).extractLsb' 13 27 = vpn2 ∧
      (makeEntryHi r vpn2 asid).extractLsb' 0 8 = asid := by
  unfold makeEntryHi
  simp (disch := omega) only [extract_append_high, extract_append_low, extract_whole, Nat.reduceSub, and_self]

/-- The PTEBase fields and the ASID are never written. -/
theorem recordExc_keeps (c : Cp0) (e : Exc) (d1 d2 d3 : Word) :
    (recordExc c e d1 d2 d3).context.extractLsb' 23 41 = c.context.extractLsb' 23 41 ∧
    (recordExc c e d1 d2 d3).xcontext.extractLsb' 33 31 = c.xcontext.extractLsb' 33 31 ∧
    (recordExc c e d1 d2 d3).entryHi.extractLsb' 0 8 = c.entryHi.extractLsb' 0 8 := by
  cases e with
  | tlbModified | tlbRefill | tlbInvalid | addrError =>
    exact ⟨(setBadVpn2_fields _ _).1, (setXBadVpn2_fields _ _ _).1, (makeEntryHi_fields _ _ _).2.2⟩
  | _ => exact ⟨rfl, rfl, rfl⟩

/-- A TLB exception records its address. -/
theorem recordTlb_fields (c : Cp0) (va : Word) :
    (recordTlb c va).badVAddr = va ∧ (recordTlb c va).context.extractLsb' 4 19 = va.extractLsb' 13 19 ∧
    (recordTlb c va).xcontext.extractLsb' 31 2 = va.extractLsb' 62 2 ∧
    (recordTlb c va).xcontext.extractLsb' 4 27 = va.extractLsb' 13 27 ∧
    (recordTlb c va).entryHi.extractLsb' 62 2 = va.extractLsb' 62 2 ∧
    (recordTlb c va).entryHi.extractLsb' 13 27 = va.extractLsb' 13 27 := by
  obtain ⟨_, hr, hvpn2⟩ := setXBadVpn2_fields c.xcontext (vaRegion va) (vaVpn2 va)
  obtain ⟨hir, hivpn2, _⟩ := makeEntryHi_fields (vaRegion va) (vaVpn2 va) (ehAsid c.entryHi)
  exact ⟨rfl, (setBadVpn2_fields _ _).2, hr, hvpn2, hir, hivpn2⟩

/-- Settles O50: what recordExc writes. -/
theorem recordedValues : Obligations.RecordedValues := by
  intro s e c t
  obtain ⟨hcontext, hxcontext, hasid⟩ := recordExc_keeps c e (s.drawnAt 1) (s.drawnAt 2) (s.drawnAt 3)
  refine ⟨hcontext, hxcontext, hasid, fun va h => ?_, fun va k h => ?_, fun h => ?_⟩
  · rcases h with rfl | ⟨k, m, rfl⟩ | ⟨k, rfl⟩ <;> exact recordTlb_fields c va
  · subst h; rfl
  · cases e with
    | tlbModified va => exact absurd rfl (h va).1
    | tlbRefill k va m => exact absurd rfl ((h va).2.1 k m)
    | tlbInvalid k va => exact absurd rfl ((h va).2.2.1 k)
    | addrError k va => exact absurd rfl ((h va).2.2.2 k)
    | _ => exact ⟨rfl, rfl, rfl, rfl⟩

/-! ## Interrupts -/

/-- When an enabled interrupt is pending (R690). -/
theorem intPending_iff (c : Cp0) : intPending c = true ↔
    c.status.getLsbD 0 = true ∧ c.status.getLsbD 1 = false ∧ c.status.getLsbD 2 = false ∧
      ∃ n : Fin 8, c.cause.getLsbD (8 + n.val) = true ∧ c.status.getLsbD (8 + n.val) = true := by
  have hbits : causeIP c.cause &&& stIM c.status ≠ 0#8 ↔
      ∃ n : Fin 8, c.cause.getLsbD (8 + n.val) = true ∧ c.status.getLsbD (8 + n.val) = true := by
    constructor
    · intro hne
      refine Classical.byContradiction fun hno => hne (BitVec.eq_of_getLsbD_eq fun j hj => ?_)
      have := not_exists.mp hno ⟨j, hj⟩
      rw [BitVec.getLsbD_and, causeIP, stIM, BitVec.getLsbD_extractLsb', BitVec.getLsbD_extractLsb', decide_eq_true hj]
      simpa using this
    · rintro ⟨n, hc, hs⟩ h0
      have := congrArg (fun x => x.getLsbD n.val) h0
      simp only [causeIP, stIM, BitVec.getLsbD_and, BitVec.getLsbD_extractLsb', n.isLt, decide_true, Bool.true_and, hc, hs] at this
      simp at this
  simp only [intPending, Bool.and_eq_true, Bool.not_eq_true', bne_iff_ne, hbits, and_assoc]
  rfl

theorem beginStep_gpr (s : State) : (beginStep s).gpr = s.gpr := by
  obtain ⟨ic, h, -⟩ := externalInvalidates_state s
  rw [beginStep, tick_gpr, h]

/-- Settles O51: the fetch's exception, then the interrupt, then the word. -/
theorem interruptTaken : Obligations.InterruptTaken := by
  intro s hs b enabled
  refine ⟨fun e hf => ?_, fun w f hf hen => ?_, fun w f hf hen => ?_⟩
  · rw [step_of_not_coldReset hs, runStep_of_fetch_raise hf]
  · have hk := fetchKeeps_fetch hf
    have hint : intPending f.cp0 = true := by rw [hk]; exact (intPending_iff b.cp0).mpr hen
    rw [step_of_not_coldReset hs, runStep_of_fetch_word hf, runWord, if_pos hint]
    exact ⟨rfl, by rw [hk], by rw [hk], by rw [hk], by rw [hk]; exact beginStep_gpr s⟩
  · have hk := fetchKeeps_fetch hf
    have hint : intPending f.cp0 ≠ true := by rw [hk]; exact mt (intPending_iff b.cp0).mp hen
    rw [step_of_not_coldReset hs, runStep_of_fetch_word hf, runWord, if_neg hint]

/-! ## The timer and the lines -/

/-- Count passes through Compare within `n` increments (R701). -/
theorem countDistance_le_iff (c : Cp0) (n : Nat) :
    countDistance c ≤ n ↔ ∃ j, 0 < j ∧ j ≤ n ∧ c.count + BitVec.ofNat 32 j = c.compare := by
  have hd : ∀ j, c.count + BitVec.ofNat 32 j = c.compare ↔ j % 2 ^ 32 = (c.compare - c.count).toNat := by
    intro j
    rw [← BitVec.toNat_inj, BitVec.toNat_add, BitVec.toNat_sub, BitVec.toNat_ofNat]
    have := c.count.isLt
    have := c.compare.isLt
    omega
  have hlt := (c.compare - c.count).isLt
  simp only [hd, countDistance]
  split
  · next h0 =>
    refine ⟨fun h => ⟨2 ^ 32, by decide, h, h0.symm⟩, fun ⟨j, hpos, hj, hmod⟩ => ?_⟩
    omega
  · next h0 =>
    refine ⟨fun h => ⟨(c.compare - c.count).toNat, by omega, h, Nat.mod_eq_of_lt hlt⟩, fun ⟨j, hpos, hj, hmod⟩ => ?_⟩
    have := Nat.mod_le j (2 ^ 32)
    omega

theorem setLines_ip7 (l : BitVec 5) (x : Word32) : (setLines l x).getLsbD 15 = x.getLsbD 15 := by
  simp [setLines]

theorem setLines_lines (l : BitVec 5) (x : Word32) : (setLines l x).extractLsb' 10 5 = l := by
  apply BitVec.eq_of_getLsbD_eq
  intro j hj
  have hm : ∀ j : Fin 5, (0x00007C00#32).getLsbD (10 + j.val) = true := by decide
  rw [BitVec.getLsbD_extractLsb', decide_eq_true hj, Bool.true_and, setLines, BitVec.getLsbD_or, BitVec.getLsbD_and,
    BitVec.getLsbD_not, hm ⟨j, hj⟩, BitVec.getLsbD_shiftLeft, BitVec.getLsbD_setWidth, Nat.add_sub_cancel_left]
  simp [show 10 + j < 32 by omega, show j < 32 by omega]

/-- The timer and the lines leave the other bits of Cause. -/
theorem setLines_others (l : BitVec 5) (x : Word32) : setLines l x &&& ~~~0x0000FC00#32 = x &&& ~~~0x0000FC00#32 := by
  have hl : ∀ l : BitVec 5, (l.setWidth 32 <<< 10) &&& ~~~0x0000FC00#32 = 0#32 := by decide
  rw [setLines, BitVec.and_or_distrib_right, hl, BitVec.or_zero, BitVec.and_assoc]
  rfl

/-- IP7 alone is what passing through Compare sets (R701). -/
theorem countAdvance_ip7 (n : Nat) (c : Cp0) :
    (countAdvance n c).cause.getLsbD 15 = true ↔ c.cause.getLsbD 15 = true ∨ countDistance c ≤ n := by
  unfold countAdvance
  dsimp only
  split
  · next h => simp [h]
  · next h => simp [h]

theorem countAdvance_others (n : Nat) (c : Cp0) :
    (countAdvance n c).cause &&& ~~~0x0000FC00#32 = c.cause &&& ~~~0x0000FC00#32 := by
  unfold countAdvance
  dsimp only
  split
  · rw [BitVec.and_or_distrib_right]
    exact BitVec.or_zero
  · rfl

/-- Settles O52: Count's advance, the lines, Random by its policy. -/
theorem timerAndLines : Obligations.TimerAndLines := by
  intro s n t
  have hcause : t.cp0.cause = setLines (linesNow s) (countAdvance n s.cp0).cause := rfl
  refine ⟨rfl, ?_, fun l rest hext => ⟨?_, ?_⟩, ?_, fun hp => if_neg hp, fun hp hw => ?_, rfl⟩
  · rw [hcause, setLines_ip7, countAdvance_ip7, countDistance_le_iff]
  · rw [hcause, setLines_lines, linesNow, hext]
  · exact congrArg List.tail hext
  · rw [hcause, setLines_others, countAdvance_others]
  · have hr : t.cp0.random = (drawSlot s.cp0.wired (s.drawnAt 2)).setWidth 32 := if_pos hp
    have := drawSlot_bounds (s.drawnAt 2) hw
    rw [hr, BitVec.toNat_setWidth, Nat.mod_eq_of_lt (by omega)]
    exact this

/-! ## The addresses user and supervisor mode reach -/

/-- An address outside every segment of the mode is an address error (R151, R170). -/
theorem translate_of_no_segment {c : TransCtx} {va : Word} {m : SegMode} (k : AccessKind) (hm : segMode c.status = some m)
    (herl : m ≠ .k64Erl) (h : ∀ g ∈ segments, m ∈ g.modes →
      ¬ (g.start.toNat ≤ va.toNat ∧ va.toNat < g.start.toNat + g.length.toNat)) : translate c va k = .raise (.addrError k va) := by
  have hres : resolveIn m va = none := List.find?_eq_none.mpr fun g hg hc => by
    rw [Bool.and_eq_true, List.contains_iff_mem, contains_iff hg] at hc
    exact h g hg hc.1 hc.2
  have herl : erlUpper m va = false := by simp [erlUpper, herl]
  simp [translate, hm, herl, hres]

theorem segMode_user {st : Word32} (h : userMode st = true) : segMode st = some (if stUX st then .u64 else .u32) := by
  have hk : kernelMode st = false := by simpa using (Bool.and_eq_true_iff.mp h).1
  have hs : supervisorMode st = false := by
    have hksu : stKSU st = 2#2 := by simpa using (Bool.and_eq_true_iff.mp h).2
    simp [supervisorMode, hksu]
  simp [segMode, hk, hs, h]

theorem segMode_supervisor {st : Word32} (h : supervisorMode st = true) : segMode st = some (if stSX st then .s64 else .s32) := by
  have hk : kernelMode st = false := by simpa using (Bool.and_eq_true_iff.mp h).1
  simp [segMode, hk, h]

/-- Settles O55: no segment of the mode's table lies there. -/
theorem userCannotReachKernel : Obligations.UserCannotReachKernel := by
  intro c va k
  have hu32 : ∀ g ∈ segments, SegMode.u32 ∈ g.modes → g.start.toNat + g.length.toNat ≤ 2 ^ 31 := by decide
  have hu64 : ∀ g ∈ segments, SegMode.u64 ∈ g.modes → g.start.toNat + g.length.toNat ≤ 2 ^ 40 := by decide
  have hsup : ∀ g ∈ segments, SegMode.s32 ∈ g.modes ∨ SegMode.s64 ∈ g.modes → g.start.toNat + g.length.toNat ≤ 2 ^ 63 ∨
      (0xFFFFFFFFC0000000 ≤ g.start.toNat ∧ g.start.toNat + g.length.toNat ≤ 0xFFFFFFFFE0000000) := by decide
  refine ⟨fun hu hx hva => ?_, fun hu hva => ?_, fun hs hva hout => ?_⟩
  · refine translate_of_no_segment (m := .u32) k (by rw [segMode_user hu, hx]; rfl) (by decide) fun g hg hm hin => ?_
    have := hu32 g hg hm
    omega
  · cases hx : stUX c.status
    · refine translate_of_no_segment (m := .u32) k (by rw [segMode_user hu, hx]; rfl) (by decide) fun g hg hm hin => ?_
      have := hu32 g hg hm
      omega
    · refine translate_of_no_segment (m := .u64) k (by rw [segMode_user hu, hx]; rfl) (by decide) fun g hg hm hin => ?_
      have := hu64 g hg hm
      omega
  · have hno (m : SegMode) (hm : m = .s32 ∨ m = .s64) : ∀ g ∈ segments, m ∈ g.modes →
        ¬ (g.start.toNat ≤ va.toNat ∧ va.toNat < g.start.toNat + g.length.toNat) := by
      intro g hg hmem hin
      have := hsup g hg (by rcases hm with rfl | rfl <;> simp [hmem])
      omega
    cases hx : stSX c.status
    · exact translate_of_no_segment (m := .s32) k (by rw [segMode_supervisor hs, hx]; rfl) (by decide) (hno _ (.inl rfl))
    · exact translate_of_no_segment (m := .s64) k (by rw [segMode_supervisor hs, hx]; rfl) (by decide) (hno _ (.inr rfl))

end Sys2Proof.Machine
end

section
/-! PROOFS. The cycle machine (70_reset_and_hazards.md R762 to R773): a stall cycle, the slots that are no instruction, and the
operands of EX. -/

namespace Sys2Proof.Machine

/-! ## The external invalidates (R224, R810) -/

/-- What an invalidate-hit makes of the line of any address. -/
theorem icLine_icInvalidateHit_any (s : State) (a va : Word) (pa : PAddr) : (s.icInvalidateHit a pa).icLine va =
    { s.icLine va with
      valid := (s.icLine va).valid && !(decide (icIndex a = icIndex va) && decide ((s.icLine va).ptag = icTag pa)) } := by
  by_cases hidx : icIndex a = icIndex va
  · have hline : ∀ t : State, t.icLine va = t.icLine a := fun t => by simp only [State.icLine, hidx]
    rw [hline, hline, icLine_icInvalidateHit]
    by_cases ht : (s.icLine a).ptag = icTag pa <;> simp [hidx, ht]
  · rw [icLine_icInvalidateHit_ne s pa (Ne.symm hidx)]
    simp [hidx]

/-- The external invalidates touch the instruction cache and their own list only. -/
theorem externalInvalidates_eq (s : State) : s.externalInvalidates = { s with
    icache := s.externalInvalidates.icache, inputs := { s.inputs with inval := s.inputs.inval.tail } } := by
  obtain ⟨ic, h, -⟩ := externalInvalidates_state s
  rw [h]

/-- A request for an invalidate-hit misses a line. -/
def missesLine (s : State) (va : Word) (x : Word × PAddr) : Bool :=
  !(decide (icIndex x.1 = icIndex va) && decide ((s.icLine va).ptag = icTag x.2))

theorem icLine_invalidates (l : List (Word × PAddr)) (s : State) (va : Word) :
    (l.foldl (fun t (va, pa) => t.icInvalidateHit va pa) s).icLine va =
      { s.icLine va with valid := (s.icLine va).valid && l.all (missesLine s va) } := by
  induction l generalizing s with
  | nil => simp
  | cons x rest ih =>
    obtain ⟨a, pa⟩ := x
    have hmiss : missesLine (s.icInvalidateHit a pa) va = missesLine s va := by
      funext y
      simp only [missesLine, icLine_icInvalidateHit_any]
    rw [List.foldl_cons, ih, icLine_icInvalidateHit_any]
    simp only [List.all_cons, hmiss, Bool.and_assoc]
    rfl

/-- The line of an address after the external invalidates: only its valid bit changes, and only when one hits it. -/
theorem icLine_externalInvalidates (s : State) (va : Word) : s.externalInvalidates.icLine va =
    { s.icLine va with valid := (s.icLine va).valid && (invalidatesNow s).all (missesLine s va) } :=
  icLine_invalidates (invalidatesNow s) s va

theorem all_missesLine_iff (s : State) (va : Word) (l : List (Word × PAddr)) : l.all (missesLine s va) = true ↔
    ∀ a pa, (a, pa) ∈ l → icIndex a = icIndex va → (s.icLine va).ptag ≠ icTag pa := by
  simp only [List.all_eq_true, Prod.forall, missesLine, Bool.not_eq_true', Bool.and_eq_false_iff, decide_eq_false_iff_not,
    Decidable.imp_iff_not_or, ne_eq]

/-! ## A stall cycle -/

/-- A stall cycle is the external invalidates, the timer and the counter (R770, R773). -/
theorem cycle_stall {s : State} (hs : s.coldReset = false) (hstall : 0 < s.pipe.cyclesToStall) : cycle s = .next
    { s.externalInvalidates.tickCycle with pipe := { s.pipe with cyclesToStall := s.pipe.cyclesToStall - 1 } } := by
  have hpipe : s.externalInvalidates.tickCycle.pipe = s.pipe := by
    obtain ⟨ic, h, -⟩ := externalInvalidates_state s
    rw [h]
    rfl
  simp only [cycle, hs, hpipe, hstall, Bool.false_eq_true, if_false, if_true]

/-- What a cycle does to CP0 (R700, R701). -/
theorem tickCycle_cp0 (s : State) :
    s.tickCycle.cp0 = { s.cp0 with count := s.tickCycle.cp0.count, cause := s.tickCycle.cp0.cause } ∧
    s.tickCycle.cp0.cause &&& ~~~0x0000FC00#32 = s.cp0.cause &&& ~~~0x0000FC00#32 ∧
    s.tickCycle.cp0.count = s.cp0.count + (if s.countPhase then 1#32 else 0#32) := by
  have hcause : s.tickCycle.cp0.cause =
      setLines (linesNow s) (if s.countPhase then countAdvance 1 s.cp0 else s.cp0).cause := rfl
  rw [hcause, setLines_others]
  unfold State.tickCycle
  cases s.countPhase
  · exact ⟨rfl, rfl, by simp⟩
  · exact ⟨rfl, countAdvance_others 1 s.cp0, rfl⟩

/-- Settles O57: the parts of a stall cycle. -/
theorem stallCycle : Obligations.StallCycle := by
  intro s hs hstall
  have keeps {α : Type} (f : State → α) : f s.externalInvalidates = f { s with
      icache := s.externalInvalidates.icache, inputs := { s.inputs with inval := s.inputs.inval.tail } } :=
    congrArg f (externalInvalidates_eq s)
  obtain ⟨hregs, hcause, hcount⟩ := tickCycle_cp0 s.externalInvalidates
  have hcp0 : s.externalInvalidates.cp0 = s.cp0 := keeps State.cp0
  have hphase : s.externalInvalidates.countPhase = s.countPhase := keeps State.countPhase
  rw [hcp0] at hregs hcause hcount
  rw [hphase] at hcount
  refine ⟨_, cycle_stall hs hstall, rfl, congrArg (!·) hphase, hregs, hcause, hcount, keeps State.gpr, keeps State.hi,
    keeps State.lo, keeps State.llbit, keeps State.pc, keeps State.delay, keeps State.tlb, keeps State.activeSeg,
    keeps State.dDirty, keeps State.dMaybe, keeps State.mem, keeps State.cp1, (keeps State.coldReset).trans hs,
    keeps State.params, keeps (·.inputs.busWait), fun va => ?_, fun va => ?_, keeps (·.inputs.inval)⟩
  · have hline : s.externalInvalidates.icLine va = { s.icLine va with valid := (s.externalInvalidates.icLine va).valid } := by
      rw [icLine_externalInvalidates]
    exact hline
  · have hvalid := congrArg IcLine.valid (icLine_externalInvalidates s va)
    exact (Iff.of_eq (congrArg (· = true) hvalid)).trans
      ((Bool.and_eq_true_iff).trans (and_congr_right fun _ => all_missesLine_iff s va _))

/-! ## The stages on a slot that is no instruction -/

/-- Settles O58: the branches of the stages for a slot that is not live. -/
theorem faultedSlotPropagates : Obligations.FaultedSlotPropagates := by
  intro s hsq
  refine ⟨fun hl => ?_, fun hl => ?_, fun hl hhold heret => ⟨fun hf => ?_, fun hf => ?_⟩, fun hl hf => ?_⟩
  · simp [stageDc, hsq, hl, State.setDcwb]
  · simp [stageEx, hsq, hl, State.setExdc]
  · simp [stageRf, hsq, hhold, heret, hf, State.setRfex]
  · simp [stageRf, hsq, hhold, heret, hf, hl, State.setRfex]
  · have hnone : faultToExc s.pipe.dcwb.hd.faultId s.pipe.dcwb.hd.cause = none := by
      simpa [Header.faulted] using hf
    simp [stageWb, hnone, hl]

/-! ## The operands of EX -/

/-- Settles O59: the forwarded result is a write over the register file. -/
theorem operandForwarding : Obligations.OperandForwarding := by
  intro s h r
  have hview : (s.viewAt h).readReg r = s.readReg r := rfl
  unfold exView
  by_cases hr : r = 0#5
  · rw [if_pos hr, hr, readReg_zero]
  rw [if_neg hr]
  cases hl : s.pipe.dcwb.hd.live
  · simp [hview]
  · by_cases hd : s.pipe.dcwb.dest = r
    · rw [if_pos rfl, if_pos ⟨rfl, hd⟩, hd, readReg_writeReg_same, if_neg hr]
    · rw [if_pos rfl, if_neg fun h => hd h.2, readReg_writeReg_ne _ _ (Ne.symm hd), hview]

end Sys2Proof.Machine
end

section
/-! PROOFS. The outcomes of a fetch and the hazard windows (20_memory.md R160, R227, R232, R252, 70_reset_and_hazards.md R800). -/

namespace Sys2Proof.Machine

/-! ## The fetch by its cases -/

theorem aligned_iff (va : Word) : va.extractLsb' 0 2 = 0#2 ↔ va.toNat % 4 = 0 := by
  rw [← BitVec.toNat_inj, BitVec.extractLsb'_toNat, Nat.shiftRight_zero]
  rfl

/-- A line of a set meets the bytes. -/
theorem anyLine_iff (set : List Nat) (a n : Nat) : anyLine set a n = true ↔ ∃ l ∈ set, l < a + n ∧ a < l + 16 := by
  simp only [anyLine, List.any_eq_true, Bool.and_eq_true, decide_eq_true_eq]

theorem anyLine_eq_false {set : List Nat} {a n : Nat} (h : ∀ l ∈ set, ¬ (l < a + n ∧ a < l + 16)) : anyLine set a n = false :=
  Bool.eq_false_iff.mpr fun hany => by
    obtain ⟨l, hl, hmeets⟩ := (anyLine_iff set a n).mp hany
    exact h l hl hmeets

theorem storeHazardAt_iff (hz : Hazards) (pa : PAddr) :
    storeHazardAt hz pa = true ↔ ∃ h ∈ hz.stores, h.addr < pa.toNat + 4 ∧ pa.toNat < h.addr + h.size := by
  simp only [storeHazardAt, List.any_eq_true, Bool.and_eq_true, decide_eq_true_eq]

section
variable {b : State} (hal : b.pc.extractLsb' 0 2 = 0#2)
include hal

theorem fetch_of_translate_stop {r : Refusal} (htr : translate b.transCtx b.pc .fetch = .stop r) : fetch b = .stop r := by
  simp [fetch, hal, htr]

theorem fetch_of_translate_raise {e : Exc} (htr : translate b.transCtx b.pc .fetch = .raise e)
    (hhz : cp0HazardAt b.hz b.pc = false) : fetch b = .raise e := by
  simp [fetch, hal, htr, hhz]

/-- An open window whose write changes the translation refuses the fetch (R800). -/
theorem fetch_of_hazard (htr : ∀ r, translate b.transCtx b.pc .fetch ≠ .stop r) (hhz : cp0HazardAt b.hz b.pc = true) :
    fetch b = .stop .cp0Hazard := by
  cases h : translate b.transCtx b.pc .fetch with
  | stop r => exact absurd h (htr r)
  | raise e => simp [fetch, hal, h, hhz]
  | ok seg pa cached => simp [fetch, hal, h, fetchRefusal, hhz]

variable {seg : Segment} {pa : PAddr} {cached : Bool} (htr : translate b.transCtx b.pc .fetch = .ok seg pa cached)
  (hhz : cp0HazardAt b.hz b.pc = false)
include htr hhz

theorem fetch_of_order {r : Refusal} (hen : endianRefusal b.cp0 = some r) : fetch b = .stop r := by
  simp [fetch, hal, htr, fetchRefusal, hhz, hen]

variable (hen : endianRefusal b.cp0 = none)
include hen

theorem fetch_of_stored (hst : storeHazardAt b.hz pa = true) : fetch b = .stop .storeToFetched := by
  simp [fetch, hal, htr, fetchRefusal, hhz, hen, hst]

/-- The fetch goes to the bus or the cache. -/
theorem fetch_of_fetchable (hst : storeHazardAt b.hz pa = false) : fetch b =
    if cached then fetchCached b.pc pa { b with activeSeg := seg } else fetchUncached pa { b with activeSeg := seg } := by
  simp [fetch, hal, htr, fetchRefusal, hhz, hen, hst]

end

/-! ## The windows, instruction by instruction -/

theorem mem_ageStores (l : List RecentStore) (h : RecentStore) :
    h ∈ ageStores l ↔ 0 < h.left ∧ { h with left := h.left + 1 } ∈ l := by
  simp only [ageStores, List.mem_map, List.mem_filter, decide_eq_true_eq]
  constructor
  · rintro ⟨x, ⟨hx, hlt⟩, rfl⟩
    refine ⟨Nat.sub_pos_of_lt hlt, ?_⟩
    rwa [show x.left - 1 + 1 = x.left by omega]
  · rintro ⟨hpos, hm⟩
    exact ⟨_, ⟨hm, Nat.lt_add_of_pos_left hpos⟩, rfl⟩

theorem mem_ageCp0 (l : List Cp0Hazard) (h : Cp0Hazard) :
    h ∈ ageCp0 l ↔ 0 < h.left ∧ { h with left := h.left + 1 } ∈ l := by
  simp only [ageCp0, List.mem_map, List.mem_filter, decide_eq_true_eq]
  constructor
  · rintro ⟨x, ⟨hx, hlt⟩, rfl⟩
    refine ⟨Nat.sub_pos_of_lt hlt, ?_⟩
    rwa [show x.left - 1 + 1 = x.left by omega]
  · rintro ⟨hpos, hm⟩
    exact ⟨_, ⟨hm, Nat.lt_add_of_pos_left hpos⟩, rfl⟩

/-- A store window open after `k` instructions was open `k` longer before them (R252). -/
theorem mem_stores_repeat_age (b : State) (k : Nat) {h : RecentStore} (hpos : 0 < h.left) :
    h ∈ (Nat.repeat State.age k b).hz.stores ↔ { h with left := h.left + k } ∈ b.hz.stores := by
  induction k generalizing h with
  | zero => rfl
  | succ k ih =>
    refine (mem_ageStores _ h).trans ?_
    rw [and_iff_right hpos, ih (h := { h with left := h.left + 1 }) (Nat.succ_pos _)]
    simp only [Nat.add_assoc, Nat.add_comm 1 k]

/-- The same for a window of a CP0 write (R800). -/
theorem mem_cp0_repeat_age (b : State) (k : Nat) {h : Cp0Hazard} (hpos : 0 < h.left) :
    h ∈ (Nat.repeat State.age k b).hz.cp0 ↔ { h with left := h.left + k } ∈ b.hz.cp0 := by
  induction k generalizing h with
  | zero => rfl
  | succ k ih =>
    refine (mem_ageCp0 _ h).trans ?_
    rw [and_iff_right hpos, ih (h := { h with left := h.left + 1 }) (Nat.succ_pos _)]
    simp only [Nat.add_assoc, Nat.add_comm 1 k]

theorem transCtx_repeat_age (b : State) (k : Nat) : (Nat.repeat State.age k b).transCtx = b.transCtx := by
  induction k with
  | zero => rfl
  | succ k ih => exact ih

/-! ## The writes that open a window (R800) -/

/-- A CP0 or TLB write that can change a translation notes its window. -/
theorem exOf_notes {s t : State} {rt n : RegNo} {i : Instr} (hcp0 : cp0Usable s.cp0.status = true)
    (h64 : ops64Allowed s.cp0.status = true) (hq : s.params.noopQuirks = false) (hn : n ∈ [6#5, 10#5, 12#5, 16#5])
    (hi : i ∈ [Instr.mtc0 rt n, .dmtc0 rt n, .tlbwi, .tlbwr]) (hx : exec i s = .next t) :
    ∃ st : State, exOf i s = .ok { st := st.noteCp0Write s, immWrite := true } ∧ st.params = s.params ∧ st.hz = s.hz := by
  have hmove (v : Word) : ∃ st : State, moveToCp0 n v s = .ok { st := st.noteCp0Write s, immWrite := true } ∧
      st.params = s.params ∧ st.hz = s.hz := by
    have htranslates : ∀ n ∈ [6#5, 10#5, 12#5, 16#5], cp0Translates n = true := by decide
    rw [moveToCp0, if_pos (htranslates n hn)]
    exact ⟨_, rfl, by split <;> rfl, by split <;> rfl⟩
  simp only [List.mem_cons, List.not_mem_nil, or_false] at hi
  rcases hi with rfl | rfl | rfl | rfl
  · obtain ⟨st, hst, hrest⟩ := hmove (sext64 (lo32 (s.readReg rt)))
    exact ⟨st, (withCp0_usable _ hcp0).trans hst, hrest⟩
  · obtain ⟨st, hst, hrest⟩ := hmove (s.readReg rt)
    exact ⟨st, (withCp0_usable _ hcp0).trans ((withOps64_allowed _ h64).trans hst), hrest⟩
  · by_cases hidx : indexField s.cp0 < 32
    · exact ⟨_, exOf_tlbwi hcp0 hq hidx, rfl, rfl⟩
    · have hrefused := (tlbWriteResults s hcp0).2.1 hq (Nat.not_lt.mp hidx)
      cases hrefused.symm.trans hx
  · by_cases hw : s.cp0.wired.toNat ≤ 31
    · exact ⟨_, exOf_tlbwr hcp0 hw, rfl, rfl⟩
    · have hrefused := (tlbWriteResults s hcp0).2.2.2.1 (Nat.not_le.mp hw)
      cases hrefused.symm.trans hx

/-- The window it opens. -/
theorem exec_notes {s t : State} {rt n : RegNo} {i : Instr} (hcp0 : cp0Usable s.cp0.status = true)
    (h64 : ops64Allowed s.cp0.status = true) (hq : s.params.noopQuirks = false) (hn : n ∈ [6#5, 10#5, 12#5, 16#5])
    (hi : i ∈ [Instr.mtc0 rt n, .dmtc0 rt n, .tlbwi, .tlbwr]) (hx : exec i s = .next t) :
    t.hz.cp0 = { left := s.params.cp0HazardWindow, before := s.transCtx, after := t.transCtx } :: s.hz.cp0 := by
  obtain ⟨st, hex, hparams, hhz⟩ := exOf_notes hcp0 h64 hq hn hi hx
  have ht : (st.noteCp0Write s).advance .seq = t := by
    rw [exec_eq_finish, hex] at hx
    exact Host.Outcome.next.inj hx
  rw [← ht, advance_seq_eq, ← hparams, ← hhz]
  rfl

/-! ## What refuses a fetch -/

/-- A translation's own refusals are none of the hazard windows. -/
theorem translate_ne_cp0Hazard (c : TransCtx) (va : Word) (kind : AccessKind) : translate c va kind ≠ .stop .cp0Hazard := by
  intro h
  unfold translate at h
  split at h
  · cases h
  · split at h
    · cases h
    · split at h
      · cases h
      · split at h
        · unfold translateMapped at h
          split at h
          · cases h
          · cases h
          · split at h
            · next e _ =>
              unfold translateEntry at h
              split at h
              · cases h
              · dsimp only at h
                split at h
                · cases h
                · split at h
                  · cases h
                  · split at h <;> cases h
            · cases h
        · cases h

theorem endianRefusal_ne_cp0Hazard (c : Cp0) : endianRefusal c ≠ some .cp0Hazard := by
  unfold endianRefusal
  split
  · nofun
  · split <;> nofun

theorem fetchCached_ne_cp0Hazard (va : Word) (pa : PAddr) (s : State) : fetchCached va pa s ≠ .stop .cp0Hazard := by
  unfold fetchCached
  split
  · nofun
  · split
    · nofun
    · split <;> nofun

theorem fetchUncached_ne_cp0Hazard (pa : PAddr) (s : State) : fetchUncached pa s ≠ .stop .cp0Hazard := by
  unfold fetchUncached
  split
  · nofun
  · split <;> nofun

/-- Only an open window refuses a fetch by its name. -/
theorem fetch_ne_cp0Hazard {b : State} (hhz : cp0HazardAt b.hz b.pc = false) : fetch b ≠ .stop .cp0Hazard := by
  by_cases hal : b.pc.extractLsb' 0 2 = 0#2
  · cases htr : translate b.transCtx b.pc .fetch with
    | stop r =>
      rw [fetch_of_translate_stop hal htr]
      rintro ⟨⟩
      exact translate_ne_cp0Hazard _ _ _ htr
    | raise e => rw [fetch_of_translate_raise hal htr hhz]; nofun
    | ok seg pa cached =>
      cases hen : endianRefusal b.cp0 with
      | some r =>
        rw [fetch_of_order hal htr hhz hen]
        rintro ⟨⟩
        exact endianRefusal_ne_cp0Hazard _ hen
      | none =>
        cases hst : storeHazardAt b.hz pa
        · rw [fetch_of_fetchable hal htr hhz hen hst]
          cases cached
          · exact fetchUncached_ne_cp0Hazard _ _
          · exact fetchCached_ne_cp0Hazard _ _ _
        · rw [fetch_of_stored hal htr hhz hen hst]
          nofun
  · simp [fetch, hal]

/-- The segment table of a kernel with ERL = 1 and KX = 1, and of no mode (R153, R160). -/
theorem segMode_k64Erl {st : Word32} (herl : stERL st = true) (hkx : stKX st = true) : segMode st = some .k64Erl := by
  simp [segMode, kernelMode, herl, hkx]

theorem segMode_impossible {st : Word32} (hksu : stKSU st = 3#2) (hexl : stEXL st = false) (herl : stERL st = false) :
    segMode st = none := by
  simp [segMode, kernelMode, supervisorMode, userMode, hksu, hexl, herl]

/-! ## The bus's part of a fetch (R227, R232) -/

section
variable {s : State} {va : Word} {pa : PAddr}

/-- The word of an uncached fetch nothing stands in the way of. -/
theorem fetchUncached_word (hd : anyLine s.dDirty pa.toNat 4 = false) (he : ¬ Touches s .read .error pa.toNat 4) :
    fetchUncached pa s = .word (BitVec.ofNat 32 (s.busRead pa.toNat 4)) (s.afterRead pa.toNat 4) := by
  rw [fetchUncached, hd, busErrorAt_eq_false he]
  rfl

/-- The word of a refill nothing stands in the way of. -/
theorem fetchCached_filled (hmiss : s.fetchProbe va pa = none) (hd : anyLine s.dDirty (lineBase pa) 32 = false)
    (he : ¬ Touches s .read .error (lineBase pa) 32) :
    fetchCached va pa s = .word (((s.icFill va pa).icLine va).word pa) (s.icFill va pa) := by
  simp only [fetchCached, hmiss, hd, busErrorAt_eq_false he, Bool.false_eq_true, if_false]

theorem fetchUncached_outcomes :
    ((∃ l ∈ s.dDirty, l < pa.toNat + 4 ∧ pa.toNat < l + 16) → fetchUncached pa s = .stop .fetchOfDirtyLine) ∧
    ((∀ l ∈ s.dDirty, ¬ (l < pa.toNat + 4 ∧ pa.toNat < l + 16)) →
      (Touches s .read .error pa.toNat 4 → fetchUncached pa s = .raise .fetchBusError) ∧
      (¬ Touches s .read .error pa.toNat 4 →
        fetchUncached pa s = .word (BitVec.ofNat 32 (s.busRead pa.toNat 4)) (s.afterRead pa.toNat 4))) := by
  refine ⟨fun h => if_pos ((anyLine_iff _ _ _).mpr h), fun h => ⟨fun he => ?_, fetchUncached_word (anyLine_eq_false h)⟩⟩
  rw [fetchUncached, anyLine_eq_false h]
  exact if_pos ((busMeets_iff s .read .error _ _).mpr he)

theorem fetchCached_hit {l : IcLine} (h : s.fetchProbe va pa = some l) : fetchCached va pa s = .word (l.word pa) s := by
  simp only [fetchCached, h]

theorem fetchCached_miss (h : s.fetchProbe va pa = none) :
    ((∃ l ∈ s.dDirty, l < lineBase pa + 32 ∧ lineBase pa < l + 16) → fetchCached va pa s = .stop .fetchOfDirtyLine) ∧
    ((∀ l ∈ s.dDirty, ¬ (l < lineBase pa + 32 ∧ lineBase pa < l + 16)) →
      (Touches s .read .error (lineBase pa) 32 → fetchCached va pa s = .raise .fetchBusError) ∧
      (¬ Touches s .read .error (lineBase pa) 32 →
        fetchCached va pa s = .word (((s.icFill va pa).icLine va).word pa) (s.icFill va pa))) := by
  refine ⟨fun hd => ?_, fun hd => ⟨fun he => ?_, fetchCached_filled h (anyLine_eq_false hd)⟩⟩
  · simp only [fetchCached, h, (anyLine_iff _ _ _).mpr hd, if_true]
  · have he : busErrorAt s.inputs .read (lineBase pa) 32 = true := (busMeets_iff s .read .error _ _).mpr he
    simp only [fetchCached, h, anyLine_eq_false hd, he, Bool.false_eq_true, if_false, if_true]

end

/-- What the fetch of a pc in order answers. -/
theorem fetch_outcomes_translated {b : State} {seg : Segment} {pa : PAddr} {cached : Bool}
    (hal : b.pc.extractLsb' 0 2 = 0#2) (htr : translate b.transCtx b.pc .fetch = .ok seg pa cached)
    (hhz : cp0HazardAt b.hz b.pc = false) (hen : endianRefusal b.cp0 = none)
    (hst : ∀ h ∈ b.hz.stores, ¬ (h.addr < pa.toNat + 4 ∧ pa.toNat < h.addr + h.size)) : fetch b =
      if cached then fetchCached b.pc pa { b with activeSeg := seg } else fetchUncached pa { b with activeSeg := seg } :=
  fetch_of_fetchable hal htr hhz hen (Bool.eq_false_iff.mpr fun h => by
    obtain ⟨x, hx, hmeets⟩ := (storeHazardAt_iff _ _).mp h
    exact hst x hx hmeets)

/-- Settles O60: the fetch by its cases, the windows by counting. -/
theorem fetchOutcomes : Obligations.FetchOutcomes := by
  refine ⟨fun b f w h => fetch_word h, fun b => ⟨fun hal => ?_, fun hal => ?_⟩, ?_, ?_⟩
  · have hal : b.pc.extractLsb' 0 2 ≠ 0#2 := mt (aligned_iff b.pc).mp hal
    simp [fetch, hal]
  · have hal : b.pc.extractLsb' 0 2 = 0#2 := (aligned_iff b.pc).mpr hal
    refine ⟨fun hksu hexl herl => ?_, fun herl hkx hlow hhigh => ?_, fun e htr hhz => fetch_of_translate_raise hal htr hhz,
      fun seg pa cached htr hhz => ⟨fun hbe => fetch_of_order hal htr hhz (endianRefusal_littleEndian hbe),
        fun hbe hre => fetch_of_order hal htr hhz (endianRefusal_reverseEndian hbe hre), fun hbe hre => ?_⟩⟩
    · refine fetch_of_translate_stop hal ?_
      simp only [translate, show segMode b.transCtx.status = none from segMode_impossible hksu hexl herl]
    · refine fetch_of_translate_stop hal ?_
      have hupper : erlUpper .k64Erl b.pc = true := by
        simp [erlUpper, BitVec.ult]
        omega
      simp [translate, show segMode b.transCtx.status = some .k64Erl from segMode_k64Erl herl hkx, hupper]
    · have hen := endianRefusal_none (c := b.cp0) hbe hre
      refine ⟨fun hst => fetch_of_stored hal htr hhz hen ((storeHazardAt_iff _ _).mpr hst), fun hst => ?_⟩
      have hfetch := fetch_outcomes_translated hal htr hhz hen hst
      refine ⟨fun hc => ?_, fun hc => ⟨fun l hl => ?_, fun hmiss => ?_⟩⟩
      · rw [hfetch, hc]
        obtain ⟨hdirty, hclean⟩ := fetchUncached_outcomes (s := { b with activeSeg := seg }) (pa := pa)
        exact ⟨hdirty, fun hd => ⟨(hclean hd).1, fun he => ⟨_, _, (hclean hd).2 he⟩⟩⟩
      · rw [hfetch, hc]
        exact ⟨_, _, fetchCached_hit hl⟩
      · rw [hfetch, hc]
        obtain ⟨hdirty, hclean⟩ := fetchCached_miss (s := { b with activeSeg := seg }) hmiss
        exact ⟨hdirty, fun hd => ⟨(hclean hd).1, fun he => ⟨_, _, (hclean hd).2 he⟩⟩⟩
  · intro s t rt n i pc k hcp0 h64 hq hn hi hx hal u
    have hal : u.pc.extractLsb' 0 2 = 0#2 := (aligned_iff pc).mpr hal
    have hctx : u.transCtx = t.transCtx := transCtx_repeat_age t k
    have hcp0s := exec_notes hcp0 h64 hq hn hi hx
    refine ⟨fun hk hstop hne => fetch_of_hazard hal (by rw [hctx]; exact hstop) ?_, fun hk hempty => fetch_ne_cp0Hazard ?_⟩
    · have hmem := (mem_cp0_repeat_age t k
        (h := { left := s.params.cp0HazardWindow - k, before := s.transCtx, after := t.transCtx }) (Nat.sub_pos_of_lt hk)).mpr
        (by simp [hcp0s, Nat.sub_add_cancel (Nat.le_of_lt hk)])
      simp only [cp0HazardAt, List.any_eq_true, Bool.and_eq_true, decide_eq_true_eq, bne_iff_ne]
      exact ⟨_, hmem, Nat.sub_pos_of_lt hk, hne⟩
    · refine Bool.eq_false_iff.mpr fun hany => ?_
      simp only [cp0HazardAt, List.any_eq_true, Bool.and_eq_true, decide_eq_true_eq] at hany
      obtain ⟨h, hmem, hpos, _⟩ := hany
      have := (mem_cp0_repeat_age t k hpos).mp hmem
      rw [hcp0s, hempty, List.mem_singleton] at this
      have hleft : h.left + k = s.params.cp0HazardWindow := congrArg Cp0Hazard.left this
      omega
  · intro b k h hk
    obtain ⟨k, rfl⟩ := Nat.exists_eq_succ_of_ne_zero (Nat.ne_of_gt hk)
    by_cases hpos : 0 < h.left
    · rw [mem_stores_repeat_age b _ hpos, and_iff_right hpos]
    · exact ⟨fun hm => absurd ((mem_ageStores _ h).mp hm).1 hpos, fun hm => absurd hm.1 hpos⟩

end Sys2Proof.Machine
end

section
/-! PROOFS. Reset and a step of the machine (70_reset_and_hazards.md R730, R731, R823): the handler and the invariant it starts
with, and the word a step decodes. -/

namespace Sys2Proof.Machine

/-! ## Reset -/

/-- With the cold-reset signal asserted a step, and a cycle, is the handler (R730). -/
theorem step_coldReset {s : State} (h : s.coldReset = true) : step s = .next (resetHandler s) := if_pos h

theorem cycle_coldReset {s : State} (h : s.coldReset = true) : cycle s = .next (resetHandler s) := if_pos h

/-- The handler's state from power-on. -/
theorem resetHandler_powerOn : resetHandler State.powerOn = State.reset := by
  have hcp0 : (resetHandler State.powerOn).cp0 = State.reset.cp0 := by decide
  show { State.reset with cp0 := (resetHandler State.powerOn).cp0 } = State.reset
  rw [hcp0]

/-- Settles O1: the handler from power-on and from any state. -/
theorem coldResetHandler : Obligations.ColdResetHandler :=
  ⟨rfl, (step_coldReset rfl).trans (congrArg _ resetHandler_powerOn), rfl, rfl, rfl, rfl, rfl, rfl, rfl, rfl, rfl, by decide,
    by decide, rfl, rfl, fun s hs => ⟨resetHandler s, step_coldReset hs, cycle_coldReset hs, rfl, rfl, rfl, rfl, rfl, rfl, rfl,
      rfl, rfl, rfl, rfl, rfl, rfl, rfl, rfl, rfl, rfl, rfl, rfl⟩⟩

/-- The machine before the handler has run is sound. -/
theorem inv_powerOn : Inv State.powerOn where
  memory := rfl
  reg0 := rfl
  cp0 := by constructor <;> decide
  dirty := rfl
  maybe := rfl
  dirtyMaybe := nofun
  hiloAge := Nat.le_refl 3

/-- Settles O8: the handler keeps the invariant of the machine at power-on. -/
theorem resetHasInvariant : Obligations.ResetHasInvariant :=
  ⟨resetHandler_powerOn ▸ inv_resetHandler inv_powerOn, inv_powerOn⟩

/-! ## The bytes a fetch reads -/

/-- A big-endian read in two parts (R13). -/
theorem readBE_add (m : List Host.Cell) (a n k : Nat) : readBE m a (n + k) = readBE m a n * 256 ^ k + readBE m (a + n) k := by
  induction k with
  | zero => simp [readBE]
  | succ k ih =>
    rw [← Nat.add_assoc, readBE, ih, readBE, Nat.pow_succ, Nat.add_assoc a n k, Nat.add_mul, Nat.mul_assoc,
      Nat.add_assoc]

/-- The `k` bytes behind the first `p` of a big-endian read. -/
theorem readBE_middle (m : List Host.Cell) (a p k r : Nat) :
    readBE m a (p + k + r) / 256 ^ r % 256 ^ k = readBE m (a + p) k := by
  rw [readBE_add m a (p + k) r, Nat.add_comm, Nat.add_mul_div_right _ _ (Nat.pow_pos (by decide)),
    Nat.div_eq_of_lt (readBE_lt m _ r), Nat.zero_add, readBE_add, Nat.add_comm, Nat.add_mul_mod_self_right,
    Nat.mod_eq_of_lt (readBE_lt m _ k)]

/-- Memory's answer uses no free value, a device's four. -/
theorem afterRead_memory {s : State} {a n : Nat} (h : ¬ Touches s .read .device a n) : s.afterRead a n = s := by
  have hdev : busDeviceAt s.inputs a n = false := Bool.eq_false_iff.mpr fun hd => h ((busMeets_iff s .read .device a n).mp hd)
  rw [State.afterRead, hdev]
  rfl

theorem afterRead_device {s : State} {a n : Nat} (h : Touches s .read .device a n) : s.afterRead a n = s.drew 4 := by
  have hdev : busDeviceAt s.inputs a n = true := (busMeets_iff s .read .device a n).mpr h
  rw [State.afterRead, hdev]
  rfl

/-- The word of four bytes of memory. -/
theorem decodeBytes_bytesAt (b : State) (pa : PAddr) :
    decodeBytes (bytesAt b pa) = some (decode (BitVec.ofNat 32 (readBE b.mem pa.toNat 4)), []) := by
  have hword : memRead b.mem pa.toNat ++ memRead b.mem (pa.toNat + 1) ++ memRead b.mem (pa.toNat + 2) ++
      memRead b.mem (pa.toNat + 3) = BitVec.ofNat 32 (readBE b.mem pa.toNat 4) := by
    apply BitVec.eq_of_toNat_eq
    have := readBE_lt b.mem pa.toNat 4
    rw [BitVec.toNat_ofNat, Nat.mod_eq_of_lt (show readBE b.mem pa.toNat 4 < 2 ^ 32 from this)]
    simp only [toNat_append_add, readBE, Nat.add_zero]
    omega
  rw [bytesAt, decodeBytes, hword]

theorem decode_of_bytesAt {b : State} {pa : PAddr} {i : Instr} (h : decodeBytes (bytesAt b pa) = some (.instr i, [])) :
    decode (BitVec.ofNat 32 (readBE b.mem pa.toNat 4)) = .instr i := by
  rw [decodeBytes_bytesAt] at h
  exact congrArg Prod.fst (Option.some.inj h)

/-- The word of a refilled line is memory's at its address (R222, R227). -/
theorem word_icFill {s : State} {va : Word} {pa : PAddr} (hal : pa.toNat % 4 = 0)
    (hdev : ¬ Touches s .read .device (lineBase pa) 32) :
    ((s.icFill va pa).icLine va).word pa = BitVec.ofNat 32 (readBE s.mem pa.toNat 4) := by
  have hline : (s.icFill va pa).icLine va =
      { data := BitVec.ofNat 256 (s.busRead (lineBase pa) 32), ptag := icTag pa, valid := true } := icLine_setIcLine _ va _
  obtain ⟨q, hq⟩ : ∃ q, pa.toNat % 32 / 4 = q := ⟨_, rfl⟩
  have hq8 : q ≤ 7 := by omega
  have hpa : lineBase pa + 4 * q = pa.toNat := by unfold lineBase; omega
  have hmid := readBE_middle s.mem (lineBase pa) (4 * q) 4 (4 * (7 - q))
  rw [hpa, show 4 * q + 4 + 4 * (7 - q) = 32 by omega] at hmid
  have hlt := readBE_lt s.mem (lineBase pa) 32
  apply BitVec.eq_of_toNat_eq
  rw [hline, IcLine.word, BitVec.extractLsb'_toNat, BitVec.toNat_ofNat, BitVec.toNat_ofNat, busRead_memory hdev, hq,
    Nat.mod_eq_of_lt (show readBE s.mem (lineBase pa) 32 < 2 ^ 256 from hlt), Nat.shiftRight_eq_div_pow, ← hmid,
    show 224 - q * 32 = 8 * (4 * (7 - q)) by omega, Nat.pow_mul]
  simp

/-! ## A step -/

section
variable {s b : State} (hs : s.coldReset = false) (hb : b = beginStep s) {seg : Segment} {pa : PAddr} {cached : Bool}
  (hf : Fetchable b seg pa cached) (hruns : Runs b)
include hs hb hf hruns

/-- A step of a pc that can be fetched runs the word fetched, in the state the fetch leaves, one instruction older. -/
theorem step_of_word {w : Word32} {f : State}
    (hw : (if cached then fetchCached b.pc pa { b with activeSeg := seg } else fetchUncached pa { b with activeSeg := seg }) =
      .word w f) : step s = execDecoded (decode w) f.age := by
  have hfetch := (fetch_of_fetchable hf.aligned hf.translated hf.hazard hf.order hf.stored).trans hw
  have hkeeps := fetchKeeps_fetch hfetch
  have hint : intPending f.cp0 = false := by rw [hkeeps]; exact hruns.1
  have hmask : f.maskWord w = w := by rw [State.maskWord, hkeeps.killed, hruns.2]; rfl
  rw [step_of_not_coldReset hs, ← hb, runStep_of_fetch_word hfetch, runWord, hint, hmask]
  rfl

end

/-- Settles O2: the word an uncached fetch, a refill or a hit gives. -/
theorem stepRunsDecodedInstruction : Obligations.StepRunsDecodedInstruction := by
  intro s i seg pa cached hs b hf hruns f g line
  have hal : pa.toNat % 4 = 0 := by
    have hlow := translate_low hf.translated
    have := (aligned_iff b.pc).mp hf.aligned
    omega
  refine ⟨fun hc hd he => ?_, fun hc hmiss hd he => ?_, fun hc l hl hdec => ?_⟩
  · have hstep := step_of_word hs rfl hf hruns (by rw [hc]; exact fetchUncached_word (s := f) hd he)
    refine ⟨fun hdev hdec => ?_, fun hdev => ?_⟩
    · rw [hstep, afterRead_memory (s := f) hdev, busRead_memory (s := f) hdev, decode_of_bytesAt hdec]
      rfl
    · rw [hstep, afterRead_device (s := f) hdev]
      rfl
  · have hstep := step_of_word hs rfl hf hruns (by rw [hc]; exact fetchCached_filled (s := f) hmiss hd he)
    refine ⟨fun hdev hdec => ?_, fun _ => hstep⟩
    rw [hstep, word_icFill (s := f) hal hdev, decode_of_bytesAt hdec]
    rfl
  · have hstep := step_of_word hs rfl hf hruns (w := l.word pa) (f := f) (by rw [hc]; exact fetchCached_hit hl)
    rw [hstep, hdec]
    rfl

end Sys2Proof.Machine
end
